-- ==== Sys2Proof/Word.lean ====
section
/-! DEFINITION. The word types of the KW engine, at the widths the spec gives (00_scope.md R8, 10_state.md, 42_cipher_routing.md R73).
Log 15 on the byte order of 8- and 16-byte values. -/

namespace Sys2Proof

/-- A byte (00_scope.md R8). -/
abbrev Byte := BitVec 8

/-- A 32-bit register or bus word (10_state.md R13). -/
abbrev Word := BitVec 32

/-- An 8-byte value (A, R[i], the IV) as one number, byte 0 in bits 63..56: the byte order of the cipher port
(42_cipher_routing.md R73), and of "most-significant" in 00_scope.md R8. -/
abbrev Half := BitVec 64

/-- A 16-byte cipher block, byte 0 in bits 127..120 (42_cipher_routing.md R73). -/
abbrev Block := BitVec 128

/-- A 12-bit byte offset in the register window (20_memory.md R30). -/
abbrev Offset := BitVec 12

end Sys2Proof
end

