-- ==== Sys2Proof/Config.lean ====
section
/-! DEFINITION. What one implementation or its surroundings fix, and the free values: the external cipher, the draws of
BUF's contents after reset, and the legal values of N_MAX and KW_BASE. -/

namespace Sys2Proof

/-- The block cipher capability: two total functions on 16-byte blocks, each answer depending on the input block alone
(00_scope.md R6). Nothing else is assumed of it; a claim that needs `decrypt (encrypt x) = x` states it as a premise. -/
structure Cipher where
  encrypt : Block → Block
  decrypt : Block → Block
deriving Inhabited

/-- CIPHER, the external cipher under its KEK (00_scope.md R6, 10_state.md R25). It has no body, so a claim that holds of
it holds of every cipher. Log 4. Safe. -/
opaque Config.cipher : Cipher

/-- BUF_RESET, a free value: byte `k` of BUF after the last of the resets so far (00_scope.md R7, 10_state.md R28). `history`
holds the cells that BUF held at each reset, the latest first, so that the byte may depend on what BUF held: it may be cleared,
left as it was, or anything else (70_reset_and_hazards.md R109, 93_implementation_defined.md U1). It has no body: nothing can be
proved about which byte it is, or that a reset erased anything. Log 2. Safe. -/
opaque Config.bufReset (history : List (List (Nat × Byte))) (k : Nat) : Byte

/-- The legal values of N_MAX (00_scope.md R4). -/
abbrev Config.LegalNMax (nMax : Nat) : Prop := 2 ≤ nMax ∧ nMax ≤ 479

/-- The legal values of KW_BASE, the platform's parameter: 4096-byte aligned (00_scope.md R5). Log 13. -/
abbrev Config.LegalKwBase (kwBase : Nat) : Prop := kwBase % 4096 = 0

/-- The value of N_MAX in every example of the spec (00_scope.md R4); State.reset carries it. DESIGN CHOICE, log 1;
unsafe only for a claim that does not quantify over N_MAX. -/
def Config.nMaxReference : Nat := 64

end Sys2Proof
end

