-- ==== Sys2Proof/Syntax.lean ====
section
/-! DEFINITION. The instructions of the KW engine: one constructor per row of spec/opcode_table.json, and the two forms in
which the host hands one to the engine (30_encoding.md R43, R47). -/

namespace Sys2Proof

/-- The named registers of the window (10_state.md R13). -/
inductive Reg
  | id | caps | cmd | status | len | outlen | irqEn
deriving DecidableEq, Repr

/-- One constructor per row of spec/opcode_table.json. The four rows of format CMD are the host's 32-bit write of that
command word to CMD (the table's notes; 30_encoding.md R43, R44); the others are the bus transactions of
30_encoding.md R48. -/
inductive Instr
  /-- Command word 0x00000000 (41_commands.md R65). -/
  | nop
  /-- Command word 0x00000001 (43_wrap.md R81). -/
  | wrap
  /-- Command word 0x00000002 (44_unwrap.md R88). -/
  | unwrap
  /-- Every other command word, by its two fields OPC [3:0] and MBZ [31:4] (41_commands.md R67). -/
  | illegal (opc : BitVec 4) (mbz : BitVec 28)
  /-- RD ID (40_bus_access.md R53). -/
  | rdId
  /-- RD CAPS (40_bus_access.md R53). -/
  | rdCaps
  /-- RD CMD (40_bus_access.md R55). -/
  | rdCmd
  /-- RD STATUS (40_bus_access.md R56). -/
  | rdStatus
  /-- RD LEN (40_bus_access.md R58). -/
  | rdLen
  /-- RD OUTLEN (40_bus_access.md R59). -/
  | rdOutlen
  /-- RD IRQ_EN (40_bus_access.md R60). -/
  | rdIrqEn
  /-- WR ID (40_bus_access.md R54). -/
  | wrId (data : Word)
  /-- WR CAPS (40_bus_access.md R54). -/
  | wrCaps (data : Word)
  /-- WR CMD with any command word (40_bus_access.md R55). -/
  | wrCmd (data : Word)
  /-- WR STATUS (40_bus_access.md R57). -/
  | wrStatus (data : Word)
  /-- WR LEN (40_bus_access.md R58). -/
  | wrLen (data : Word)
  /-- WR OUTLEN (40_bus_access.md R54). -/
  | wrOutlen (data : Word)
  /-- WR IRQ_EN (40_bus_access.md R60). -/
  | wrIrqEn (data : Word)
  /-- RD BUF at a window offset (40_bus_access.md R61). -/
  | rdBuf (off : Offset)
  /-- WR BUF at a window offset (40_bus_access.md R62). -/
  | wrBuf (off : Offset) (data : Word)
  /-- Every descriptor no other row matches, by its four fields (40_bus_access.md R63). -/
  | refused (size : BitVec 2) (write : Bool) (off : Offset) (data : Word)
deriving DecidableEq, Repr

/-- What the host puts on the engine's bus, as bits: a 47-bit descriptor of format BUS (30_encoding.md R47), or a 32-bit
command word of format CMD, which stands for its write to CMD (30_encoding.md R43). -/
inductive HostWord
  | bus (descriptor : BitVec 47)
  | cmd (word : Word)
deriving DecidableEq, Repr

end Sys2Proof
end

