-- ==== Sys2Proof/Machine/Window.lean ====
section
/-! DEFINITION. The address map of the 4096-byte register window (10_state.md R13, 20_memory.md R30, R31, R36). -/

namespace Sys2Proof.Machine

/-- The offset of each named register (10_state.md R13). -/
def regOffset : Reg → Offset
  | .id => 0x000
  | .caps => 0x004
  | .cmd => 0x008
  | .status => 0x00C
  | .len => 0x010
  | .outlen => 0x014
  | .irqEn => 0x018

/-- The register at an offset, if one starts there (10_state.md R13). -/
def regAt (off : Offset) : Option Reg :=
  if off = 0x000 then some .id
  else if off = 0x004 then some .caps
  else if off = 0x008 then some .cmd
  else if off = 0x00C then some .status
  else if off = 0x010 then some .len
  else if off = 0x014 then some .outlen
  else if off = 0x018 then some .irqEn
  else none

/-- The window offset of BUF[0] (20_memory.md R31). -/
def bufBase : Nat := 0x100

/-- The number of bytes of BUF (10_state.md R11). -/
def bufSize (nMax : Nat) : Nat := 8 * (nMax + 1)

/-- `OFF[1:0] = 0` (20_memory.md R34). -/
def aligned (off : Offset) : Bool := off.toNat % 4 == 0

/-- The offsets of a BUF word: 0x100 .. 0x100 + 8*(N_MAX+1) - 4, step 4 (30_encoding.md R48). -/
def isBufOffset (nMax : Nat) (off : Offset) : Bool :=
  aligned off && decide (bufBase ≤ off.toNat) && decide (off.toNat + 4 ≤ bufBase + bufSize nMax)

/-- The BUF index `k = off - 0x100` of a BUF word's first byte (40_bus_access.md R61). -/
def bufIndex (off : Offset) : Nat := off.toNat - bufBase

/-- A transaction the engine decodes: 32 bits, aligned, at a register or inside BUF (30_encoding.md R48). Every other one
is refused (40_bus_access.md R63). -/
def decodes (nMax : Nat) (size : BitVec 2) (off : Offset) : Bool :=
  decide (size = 2) && aligned off && ((regAt off).isSome || isBufOffset nMax off)

/-- The host's system address of a window offset (20_memory.md R30). `kwBase` is the platform's KW_BASE, 4096-byte aligned in
every platform (00_scope.md R5): the premise `Config.LegalKwBase kwBase` of a claim that needs it. Log 13. -/
def systemAddress (kwBase : Nat) (off : Offset) : Nat := kwBase + off.toNat

/-- The window offset of a system address, where the address lies in the 4096-byte window at KW_BASE (20_memory.md R29, R30).
Under `Config.LegalKwBase kwBase` (00_scope.md R5) it is the address's low 12 bits. Log 13. -/
def windowOffset (kwBase addr : Nat) : Option Offset :=
  if kwBase ≤ addr ∧ addr < kwBase + 4096 then some (BitVec.ofNat 12 (addr - kwBase)) else none

end Sys2Proof.Machine
end

