-- ==== Sys2Proof/WellFormed.lean ====
section
/-! DEFINITION. Which instructions are well formed: those some bits decode to, for a given N_MAX. -/

namespace Sys2Proof

/-- ILLEGAL stands for every command word other than 0, 1 and 2 (30_encoding.md R45). -/
def wfIllegal (opc : BitVec 4) (mbz : BitVec 28) : Bool :=
  decide (mbz ≠ 0) || decide (3 ≤ opc.toNat)

/-- RD BUF and WR BUF name a word inside BUF (30_encoding.md R48). -/
def wfBuf (nMax : Nat) (off : Offset) : Bool := Sys2Proof.Machine.isBufOffset nMax off

/-- REFUSED stands for the descriptors no other row matches (30_encoding.md R48, 40_bus_access.md R63). -/
def wfRefused (nMax : Nat) (size : BitVec 2) (off : Offset) : Bool :=
  !Sys2Proof.Machine.decodes nMax size off

/-- The well-formedness of an instruction in an engine of capacity `nMax`. The meanings also answer ill-formed operands:
log 18. -/
def Instr.wf (nMax : Nat) : Instr → Bool
  | .nop => true
  | .wrap => true
  | .unwrap => true
  | .illegal opc mbz => wfIllegal opc mbz
  | .rdId => true
  | .rdCaps => true
  | .rdCmd => true
  | .rdStatus => true
  | .rdLen => true
  | .rdOutlen => true
  | .rdIrqEn => true
  | .wrId _ => true
  | .wrCaps _ => true
  | .wrCmd _ => true
  | .wrStatus _ => true
  | .wrLen _ => true
  | .wrOutlen _ => true
  | .wrIrqEn _ => true
  | .rdBuf off => wfBuf nMax off
  | .wrBuf off _ => wfBuf nMax off
  | .refused size _ off _ => wfRefused nMax size off

end Sys2Proof
end

