-- ==== Sys2Proof/Decode.lean ====
section
/-! DEFINITION. The decoder of command words and bus descriptors (30_encoding.md R44, R48), the encoder, and the reading of
a transaction given as bytes or as a table word. -/

namespace Sys2Proof

open Sys2Proof.Machine

/-- SIZE, bits [46:45] of a descriptor (30_encoding.md R47). -/
def descSize (d : BitVec 47) : BitVec 2 := d.extractLsb' 45 2

/-- W, bit [44] of a descriptor (30_encoding.md R47). -/
def descWrite (d : BitVec 47) : Bool := d.getLsbD 44

/-- OFF, bits [43:32] of a descriptor (30_encoding.md R47). -/
def descOff (d : BitVec 47) : Offset := d.extractLsb' 32 12

/-- DATA, bits [31:0] of a descriptor (30_encoding.md R47). -/
def descData (d : BitVec 47) : Word := d.extractLsb' 0 32

/-- A descriptor from its fields (30_encoding.md R47). -/
def descriptor (size : BitVec 2) (write : Bool) (off : Offset) (data : Word) : BitVec 47 :=
  size ++ BitVec.ofBool write ++ off ++ data

/-- The command word, matched on all 32 bits (30_encoding.md R44, R45). -/
def decodeCmd (w : Word) : Instr :=
  if w = 0 then .nop
  else if w = 1 then .wrap
  else if w = 2 then .unwrap
  else .illegal (w.extractLsb' 0 4) (w.extractLsb' 4 28)

/-- The read of a named register (30_encoding.md R48, W = 0). -/
def rdReg : Reg → Instr
  | .id => .rdId
  | .caps => .rdCaps
  | .cmd => .rdCmd
  | .status => .rdStatus
  | .len => .rdLen
  | .outlen => .rdOutlen
  | .irqEn => .rdIrqEn

/-- The write of a named register (30_encoding.md R48, W = 1). -/
def wrReg (data : Word) : Reg → Instr
  | .id => .wrId data
  | .caps => .wrCaps data
  | .cmd => .wrCmd data
  | .status => .wrStatus data
  | .len => .wrLen data
  | .outlen => .wrOutlen data
  | .irqEn => .wrIrqEn data

/-- A descriptor by its fields (30_encoding.md R48): size and alignment first, then the offset (60_exceptions.md R97). -/
def decodeFields (nMax : Nat) (size : BitVec 2) (write : Bool) (off : Offset) (data : Word) : Instr :=
  if size = 2 ∧ aligned off = true then
    match regAt off with
    | some r => if write then wrReg data r else rdReg r
    | none =>
      if isBufOffset nMax off then (if write then .wrBuf off data else .rdBuf off)
      else .refused size write off data
  else .refused size write off data

/-- The transaction decode, total: every 47-bit descriptor has exactly one row (30_encoding.md R48). -/
def decodeBus (nMax : Nat) (d : BitVec 47) : Instr :=
  decodeFields nMax (descSize d) (descWrite d) (descOff d) (descData d)

/-- The decoder of the two formats, total (30_encoding.md R44, R48). -/
def decode (nMax : Nat) : HostWord → Instr
  | .bus d => decodeBus nMax d
  | .cmd w => decodeCmd w

/-- A legal 32-bit read of a register; DATA is 0 for a read (30_encoding.md R47). -/
def encodeRead (r : Reg) : HostWord := .bus (descriptor 2 false (regOffset r) 0)

/-- A legal 32-bit write of a register (30_encoding.md R47). -/
def encodeWrite (r : Reg) (data : Word) : HostWord := .bus (descriptor 2 true (regOffset r) data)

/-- The bits of an instruction (30_encoding.md R43, R44, R47, R48). -/
def encode : Instr → HostWord
  | .nop => .cmd 0x00000000
  | .wrap => .cmd 0x00000001
  | .unwrap => .cmd 0x00000002
  | .illegal opc mbz => .cmd (mbz ++ opc)
  | .rdId => encodeRead .id
  | .rdCaps => encodeRead .caps
  | .rdCmd => encodeRead .cmd
  | .rdStatus => encodeRead .status
  | .rdLen => encodeRead .len
  | .rdOutlen => encodeRead .outlen
  | .rdIrqEn => encodeRead .irqEn
  | .wrId data => encodeWrite .id data
  | .wrCaps data => encodeWrite .caps data
  | .wrCmd data => encodeWrite .cmd data
  | .wrStatus data => encodeWrite .status data
  | .wrLen data => encodeWrite .len data
  | .wrOutlen data => encodeWrite .outlen data
  | .wrIrqEn data => encodeWrite .irqEn data
  | .rdBuf off => .bus (descriptor 2 false off 0)
  | .wrBuf off data => .bus (descriptor 2 true off data)
  | .refused size write off data => .bus (descriptor size write off data)

/-- Why bytes are no transaction of either format. -/
inductive DecodeError
  /-- Neither 4 bytes (format CMD) nor 6 bytes (format BUS). -/
  | length (bytes : Nat)
  /-- Six bytes whose bit 47 is set: a descriptor has 47 bits (30_encoding.md R47). -/
  | bit47
deriving DecidableEq, Repr

/-- Bytes as one number, the first byte least significant. -/
def natOfBytes : List Byte → Nat
  | [] => 0
  | b :: rest => b.toNat + 256 * natOfBytes rest

/-- A transaction written out as bytes, the least significant byte first: 4 bytes are a command word, 6 bytes a descriptor.
The spec stores neither (30_encoding.md R47), so this byte form is the model's own: DESIGN CHOICE, log 9; safe. -/
def hostWordOfBytes (bytes : List Byte) : Except DecodeError HostWord :=
  if bytes.length = 4 then .ok (.cmd (BitVec.ofNat 32 (natOfBytes bytes)))
  else if bytes.length = 6 then
    if natOfBytes bytes < 2 ^ 47 then .ok (.bus (BitVec.ofNat 47 (natOfBytes bytes))) else .error .bit47
  else .error (.length bytes.length)

/-- The decoder on any bytes: an instruction, or a rejection by name. -/
def decodeBytes (nMax : Nat) (bytes : List Byte) : Except DecodeError Instr :=
  match hostWordOfBytes bytes with
  | .ok h => .ok (decode nMax h)
  | .error e => .error e

/-- `count` bytes of a number, the least significant first. -/
def bytesOfNat : Nat → Nat → List Byte
  | 0, _ => []
  | count + 1, w => BitVec.ofNat 8 w :: bytesOfNat count (w / 256)

/-- The bytes of a table word of `nbits` bits: rows of 32 bits or fewer are command words, longer ones descriptors. -/
def tableBytes (nbits w : Nat) : List Byte :=
  if nbits ≤ 32 then bytesOfNat 4 w else if nbits ≤ 48 then bytesOfNat 6 w else bytesOfNat ((nbits + 7) / 8) w

/-- The host word of a table word, if it is one of either format. -/
def tableHostWord (nbits w : Nat) : Option HostWord :=
  match hostWordOfBytes (tableBytes nbits w) with
  | .ok h => some h
  | .error _ => none

/-- The instruction the decoder reads from a word of spec/opcode_table.json, in an engine of the reference capacity. -/
def decodeTableWord (nbits w : Nat) : Option Instr :=
  match decodeBytes Config.nMaxReference (tableBytes nbits w) with
  | .ok i => some i
  | .error _ => none

end Sys2Proof
end

