-- ==== Sys2Proof/Machine/State.lean ====
section
/-! DEFINITION. The state of the KW engine (10_state.md), the events that its surroundings send it, the reasons a step can
stop, and the state after reset (10_state.md R28). -/

namespace Sys2Proof.Machine

/-- The sequencer's phase (10_state.md R18). -/
inductive Phase
  | idle | round | final
deriving DecidableEq, Repr

/-- The running command (10_state.md R18). -/
inductive Op
  | wrap | unwrap
deriving DecidableEq, Repr

/-- The direction of a cipher request, 0 encrypt and 1 decrypt (10_state.md R23). -/
inductive Dir
  | encrypt | decrypt
deriving DecidableEq, Repr

/-- The codes of STATUS.ERR that are ever produced (60_exceptions.md R95). Codes 4..15 cannot be held: log 12. -/
inductive ErrCode
  | none | invalidLength | integrityFailure | illegalCommand
deriving DecidableEq, Repr

/-- The response of a bus transaction (00_scope.md R9). -/
inductive Resp
  | okay | slverr
deriving DecidableEq, Repr

/-- What the bus slave answers: read data (none for a write, to which the spec gives no read data) and the response. Log 8. -/
structure BusResponse where
  data : Option Word
  resp : Resp
deriving DecidableEq, Repr

/-- One move of one of the agents (00_scope.md R10), in the order a scheduler chose. Log 5. -/
inductive Event
  /-- The host issues a transaction (40_bus_access.md). -/
  | host (h : HostWord)
  /-- The engine sequencer takes its turn. -/
  | engine
  /-- The cipher raises cack with CIPHER's answer to the outstanding request (42_cipher_routing.md R74). -/
  | cack
  /-- The cipher raises cack with this block, whatever it is: a cipher or a KEK other than CIPHER's
  (93_implementation_defined.md U3). -/
  | cackWith (b : Block)
  /-- The reset input rst_n takes this level (70_reset_and_hazards.md R108). -/
  | rst (level : Bool)
deriving DecidableEq, Repr

/-- The state of the engine. -/
structure State where
  /-- N_MAX, a parameter fixed for a run (00_scope.md R4, 10_state.md R25). Log 1. -/
  nMax : Nat
  /-- The level of the reset input rst_n (42_cipher_routing.md R73). -/
  rstN : Bool
  /-- BUF (10_state.md R11): the bytes written since reset, by index, strictly rising. Log 2. -/
  buf : List Host.Cell
  /-- STATUS.DONE (10_state.md R16). -/
  done : Bool
  /-- STATUS.ERR (10_state.md R16). -/
  err : ErrCode
  /-- LEN (10_state.md R20). -/
  len : Word
  /-- OUTLEN (10_state.md R21). -/
  outlen : Word
  /-- IRQ_EN.DONE_IE (10_state.md R22). -/
  doneIE : Bool
  /-- The sequencer's phase (10_state.md R18). -/
  phase : Phase
  /-- The running command, meaningful only while busy (10_state.md R18). Logs 3 and 21. -/
  op : Op
  /-- `L`, the value of LEN latched at acceptance (10_state.md R18). -/
  lenLatched : Word
  /-- The number of key blocks of the running command (10_state.md R18). -/
  n : BitVec 9
  /-- The round index, 7 read as −1 (10_state.md R18). Log 17. -/
  j : BitVec 3
  /-- The block index (10_state.md R18). -/
  i : BitVec 9
  /-- The round counter (10_state.md R17). -/
  t : BitVec 32
  /-- A cipher request is outstanding (10_state.md R23). -/
  creq : Bool
  /-- The direction of the request (10_state.md R23). -/
  cdir : Dir
  /-- The block sent (10_state.md R23). -/
  cin : Block
  /-- The block answered (10_state.md R23). -/
  cout : Block
  /-- The bus slave's outputs: `some r` in the step that completes a transaction (42_cipher_routing.md R73). Log 8. -/
  response : Option BusResponse
  /-- The model's own: the cells that BUF held at each reset so far, the latest first, on which the draw of BUF's contents may
  depend (70_reset_and_hazards.md R109). Log 2. -/
  bufHistory : List (List Host.Cell)
  /-- The model's own: the agents' next moves, in order. Log 5. -/
  agenda : List Event
deriving DecidableEq, Repr

/-- Why the machine stops. -/
inductive Fault
  /-- Raised by the engine's turn and by a cipher answer when the sequencer registers lie outside the ranges of
  10_state.md R27, in which the rules name no byte of BUF. No run reaches such a state. Safe. Log 11. -/
  | sequencerOutOfRange
deriving DecidableEq, Repr

/-- Why an instruction has no meaning. -/
inductive Refusal
  /-- Raised by exec's arm of an instruction that has no meaning yet. Safe. -/
  | notModelled (mnemonic : String)
  /-- Raised by every transaction issued while rst_n = 0, which the slave does not answer and to which the spec gives no
  outcome (70_reset_and_hazards.md R108, 93_implementation_defined.md U12). Safe. Log 7. -/
  | busDuringReset
deriving DecidableEq, Repr

/-- The machine right after reset (10_state.md R28). `nMax` is the spec's reference value (log 1); `op`, `cin` and `cout`,
for which the spec gives no value, are named in log 3; `response`, `bufHistory` and `agenda` in logs 8, 2 and 5. -/
def State.reset : State where
  nMax := Config.nMaxReference
  rstN := true
  buf := []
  done := false
  err := .none
  len := 0
  outlen := 0
  doneIE := false
  phase := .idle
  op := .wrap
  lenLatched := 0
  n := 0
  j := 0
  i := 0
  t := 0
  creq := false
  cdir := .encrypt
  cin := 0
  cout := 0
  response := none
  bufHistory := []
  agenda := []

end Sys2Proof.Machine
end

