-- ==== Sys2Proof/Machine/Operands.lean ====
section
/-! DEFINITION. The operands: constants, byte lanes, the length checks and block count, the counter encoder, and the halves
of a cipher block. Pure functions; no state. -/

namespace Sys2Proof.Machine

/-- The identification constant (10_state.md R14). -/
def idValue : Word := 0x4B573394

/-- The IV, A6 eight times (10_state.md R12). -/
def iv : Half := 0xA6A6A6A6A6A6A6A6

/-- CMD words (30_encoding.md R44). -/
def cmdNop : Word := 0x00000000

/-- CMD words (30_encoding.md R44). -/
def cmdWrap : Word := 0x00000001

/-- CMD words (30_encoding.md R44). -/
def cmdUnwrap : Word := 0x00000002

/-- CAPS: `zext_32(N_MAX[15:0])` (40_bus_access.md R53). -/
def capsWord (nMax : Nat) : Word := (BitVec.ofNat 16 nMax).setWidth 32

/-- `le32` of four bytes: byte m in bits [8m+7:8m] (00_scope.md R8, 20_memory.md R32). -/
def le32 (b0 b1 b2 b3 : Byte) : Word := b3 ++ b2 ++ b1 ++ b0

/-- The bytes of a bus word, byte m from bits [8m+7:8m] (20_memory.md R32). -/
def wordBytes (d : Word) : List Byte :=
  [d.extractLsb' 0 8, d.extractLsb' 8 8, d.extractLsb' 16 8, d.extractLsb' 24 8]

/-- Eight bytes in sequence order as one value (00_scope.md R8). -/
def halfOfBytes (b0 b1 b2 b3 b4 b5 b6 b7 : Byte) : Half := b0 ++ b1 ++ b2 ++ b3 ++ b4 ++ b5 ++ b6 ++ b7

/-- The eight bytes of a value in sequence order (00_scope.md R8). -/
def halfBytes (x : Half) : List Byte :=
  [x.extractLsb' 56 8, x.extractLsb' 48 8, x.extractLsb' 40 8, x.extractLsb' 32 8,
   x.extractLsb' 24 8, x.extractLsb' 16 8, x.extractLsb' 8 8, x.extractLsb' 0 8]

/-- MSB8 of a block: its first eight bytes (00_scope.md R8). -/
def msb8 (b : Block) : Half := b.extractLsb' 64 64

/-- LSB8 of a block: its last eight bytes (00_scope.md R8). -/
def lsb8 (b : Block) : Half := b.extractLsb' 0 64

/-- The counter encoder: `X[0..4) ‖ (X[4..8) ⊕ be32(t))` (42_cipher_routing.md R77). -/
def ctr (x : Half) (t : BitVec 32) : Half := x.extractLsb' 32 32 ++ (x.extractLsb' 0 32 ^^^ t)

/-- The WRAP length check (41_commands.md R68), on unsigned integers without wrap-around (R72). -/
def wrapLenOK (nMax : Nat) (len : Word) : Bool :=
  decide (16 ≤ len.toNat) && decide (len.toNat % 8 = 0) && decide (len.toNat ≤ 8 * nMax)

/-- The UNWRAP length check (41_commands.md R69). -/
def unwrapLenOK (nMax : Nat) (len : Word) : Bool :=
  decide (24 ≤ len.toNat) && decide (len.toNat % 8 = 0) && decide (len.toNat ≤ 8 * (nMax + 1))

/-- The block count of WRAP, `n = L / 8` (30_encoding.md R46). -/
def wrapBlocks (len : Word) : BitVec 9 := BitVec.ofNat 9 (len.toNat / 8)

/-- The block count of UNWRAP, `n = L / 8 − 1` (30_encoding.md R46). -/
def unwrapBlocks (len : Word) : BitVec 9 := BitVec.ofNat 9 (len.toNat / 8 - 1)

/-- The number of rounds of a command of `n` blocks, `6n` (42_cipher_routing.md R80). -/
def roundCount (n : BitVec 9) : BitVec 32 := BitVec.ofNat 32 (6 * n.toNat)

/-- The direction of every request of a command (42_cipher_routing.md R80). -/
def opDir : Op → Dir
  | .wrap => .encrypt
  | .unwrap => .decrypt

/-- The answer the cipher must give to a block sent in a direction (42_cipher_routing.md R74). -/
def Cipher.answer (c : Cipher) : Dir → Block → Block
  | .encrypt, v => c.encrypt v
  | .decrypt, v => c.decrypt v

end Sys2Proof.Machine
end

