-- ==== Sys2Proof/Machine/Flags.lean ====
section
/-! DEFINITION. STATUS, the interrupt output, the clearing of DONE, ERR and OUTLEN at acceptance, and the register writes. The
completion step is in Machine/Ops.lean. -/

namespace Sys2Proof.Machine

/-- `BUSY = (phase ≠ IDLE)` (10_state.md R16). -/
def State.busy (s : State) : Bool := decide (s.phase ≠ .idle)

/-- The code of an error in STATUS[7:4] (60_exceptions.md R95). -/
def ErrCode.code : ErrCode → BitVec 4
  | .none => 0
  | .invalidLength => 1
  | .integrityFailure => 2
  | .illegalCommand => 3

/-- What a read of STATUS returns: `zext_32(ERR[3:0] ‖ 0b00 ‖ DONE ‖ BUSY)` (40_bus_access.md R56). -/
def State.statusWord (s : State) : Word :=
  ((s.err.code ++ 0#2 ++ BitVec.ofBool s.done ++ BitVec.ofBool s.busy : BitVec 8)).setWidth 32

/-- What a read of IRQ_EN returns: `zext_32(DONE_IE)` (40_bus_access.md R60). -/
def State.irqEnWord (s : State) : Word := (BitVec.ofBool s.doneIE).setWidth 32

/-- The interrupt output, a level: `DONE ∧ DONE_IE` (60_exceptions.md R99). -/
def State.irq (s : State) : Bool := s.done && s.doneIE

/-- The clearing at acceptance of every command word other than NOP (41_commands.md R66). -/
def State.clearStatus (s : State) : State :=
  { s with done := false, err := .none, outlen := 0 }

/-- The write of STATUS: bit 1 set clears DONE, the other bits are ignored (40_bus_access.md R57). -/
def State.writeStatus (d : Word) (s : State) : State :=
  { s with done := s.done && !d.getLsbD 1 }

/-- The write of IRQ_EN: bit 0 is DONE_IE, the other bits are ignored (40_bus_access.md R60). -/
def State.writeIrqEn (d : Word) (s : State) : State :=
  { s with doneIE := d.getLsbD 0 }

/-- The write of LEN: every bit is stored (10_state.md R20). -/
def State.writeLen (d : Word) (s : State) : State := { s with len := d }

end Sys2Proof.Machine
end

