-- ==== Sys2Proof/Machine/Ops.lean ====
section
/-! DEFINITION. The named operations over memory and the bus: the cells of BUF, bytes and eight-byte values of BUF, the
zeroing of BUF, the bus slave's answer, the frame every transaction runs in, and the completion step by which an error is
taken; the engine has no trap to return from (60_exceptions.md R98). -/

namespace Sys2Proof.Machine

/-- The canonical form: addresses strictly rising. An unlisted address holds no written value, so no entry can equal what
an unlisted address reads as. Log 2. -/
abbrev Memory.wf (m : List Host.Cell) : Prop := (m.map Prod.fst).Pairwise (· < ·)

/-- The byte written at an address since reset; none where nothing was written. -/
def Memory.find : List Host.Cell → Nat → Option Byte
  | [], _ => none
  | (b, v) :: rest, a => if a = b then some v else Memory.find rest a

/-- Write one byte, keeping the canonical form. -/
def Memory.set : List Host.Cell → Nat → Byte → List Host.Cell
  | [], a, v => [(a, v)]
  | (b, u) :: rest, a, v =>
    if a < b then (a, v) :: (b, u) :: rest
    else if a = b then (a, v) :: rest
    else (b, u) :: Memory.set rest a v

/-- Write consecutive bytes, the first at address `a`. -/
def Memory.setBytes : List Host.Cell → Nat → List Byte → List Host.Cell
  | m, _, [] => m
  | m, a, v :: rest => Memory.setBytes (Memory.set m a v) (a + 1) rest

/-- What a byte that nothing has written since reset reads as: its draw (00_scope.md R7), a free value that may depend on what
BUF held at the resets so far (70_reset_and_hazards.md R109). DESIGN CHOICE on the form, log 2. Safe. -/
def State.unwrittenByte (s : State) (k : Nat) : Byte := Config.bufReset s.bufHistory k

/-- `BUF[k]` (00_scope.md R9). -/
def State.bufByte (s : State) (k : Nat) : Byte := (Memory.find s.buf k).getD (s.unwrittenByte k)

/-- `BUF[a..a+m) <- X` (00_scope.md R9). -/
def State.storeBytes (a : Nat) (bs : List Byte) (s : State) : State :=
  { s with buf := Memory.setBytes s.buf a bs }

/-- `BUF[a..a+8)` as one value. -/
def State.half (s : State) (a : Nat) : Half :=
  halfOfBytes (s.bufByte a) (s.bufByte (a + 1)) (s.bufByte (a + 2)) (s.bufByte (a + 3))
    (s.bufByte (a + 4)) (s.bufByte (a + 5)) (s.bufByte (a + 6)) (s.bufByte (a + 7))

/-- `BUF[a..a+8) <- x`. -/
def State.storeHalf (a : Nat) (x : Half) (s : State) : State := s.storeBytes a (halfBytes x)

/-- The integrity register A = BUF[0..8) (10_state.md R11). -/
def State.regA (s : State) : Half := s.half 0

/-- Key block R[i] = BUF[8i..8i+8) (10_state.md R11). -/
def State.regR (s : State) (i : Nat) : Half := s.half (8 * i)

/-- `le32(BUF[k..k+4))` (40_bus_access.md R61). -/
def State.bufWord (s : State) (k : Nat) : Word :=
  le32 (s.bufByte k) (s.bufByte (k + 1)) (s.bufByte (k + 2)) (s.bufByte (k + 3))

/-- `BUF[k..k+4) <- bytes of d` (40_bus_access.md R62). -/
def State.storeWord (k : Nat) (d : Word) (s : State) : State := s.storeBytes k (wordBytes d)

/-- `BUF[0..m) <- 0x00` (44_unwrap.md R93). -/
def State.zeroBuf (m : Nat) (s : State) : State := s.storeBytes 0 (List.replicate m 0)

/-- The end of a command, in one step; the one place where an error is taken (60_exceptions.md R96). `op` keeps its value: while
IDLE it may hold any (10_state.md R18, 93_implementation_defined.md U2), and keeping it is the model's choice. DESIGN CHOICE,
log 21. Unsafe for a claim about `op` while IDLE; no step reads it then. -/
def State.complete (err : ErrCode) (outlen : Word) (s : State) : State :=
  { s with phase := .idle, err := err, outlen := outlen, done := true }

/-- The bus slave completes the transaction with this answer (42_cipher_routing.md R73). -/
def State.respond (data : Option Word) (resp : Resp) (s : State) : State :=
  { s with response := some ⟨data, resp⟩ }

/-- A read answered OKAY with data; reads write no other state (40_bus_access.md R51). -/
def State.readOkay (s : State) (data : Word) : State := s.respond (some data) .okay

/-- A refused read: data 0 and SLVERR, nothing else (40_bus_access.md R63). -/
def State.readRefused (s : State) : State := s.respond (some 0) .slverr

/-- A write answered OKAY. -/
def State.writeOkay (s : State) : State := s.respond none .okay

/-- A refused write: SLVERR, nothing else (40_bus_access.md R63). -/
def State.writeRefused (s : State) : State := s.respond none .slverr

/-- Every host transaction: the slave answers it in one atomic step (20_memory.md R35), unless rst_n = 0, when it answers
none (70_reset_and_hazards.md R108). -/
def transact (s : State) (effect : State → State) : Host.Outcome State Fault Refusal :=
  if s.rstN then .next (effect s) else .refused .busDuringReset

/-- A write of CMD, LEN or BUF: refused while busy (70_reset_and_hazards.md R111), else its effect and OKAY. -/
def writeIdle (effect : State → State) (s : State) : State :=
  if s.busy then s.writeRefused else (effect s).writeOkay

end Sys2Proof.Machine
end

