-- ==== Sys2Proof/Machine/Buffer.lean ====
section
/-! DEFINITION. Reads and writes of BUF, and the transactions the engine does not decode (40_bus_access.md R61 to R63). -/

namespace Sys2Proof.Machine

/-- A read of a BUF word: the offset is checked first, then BUSY (60_exceptions.md R97). -/
def readBuf (off : Offset) (s : State) : State :=
  if isBufOffset s.nMax off then
    if s.busy then s.readRefused else s.readOkay (s.bufWord (bufIndex off))
  else s.readRefused

/-- A write of a BUF word: the offset is checked first, then BUSY (60_exceptions.md R97). -/
def writeBuf (off : Offset) (data : Word) (s : State) : State :=
  if isBufOffset s.nMax off then writeIdle (State.storeWord (bufIndex off) data) s
  else s.writeRefused

/-- A refused transaction: SLVERR, and data 0 for a read (40_bus_access.md R63). -/
def refuse (write : Bool) (s : State) : State :=
  if write then s.writeRefused else s.readRefused

/-- RD BUF (40_bus_access.md R61). -/
def execRdBuf (off : Offset) (s : State) : Host.Outcome State Fault Refusal :=
  transact s (readBuf off)

/-- WR BUF (40_bus_access.md R62). -/
def execWrBuf (off : Offset) (data : Word) (s : State) : Host.Outcome State Fault Refusal :=
  transact s (writeBuf off data)

/-- A refused transaction (40_bus_access.md R63). -/
def execRefused (_size : BitVec 2) (write : Bool) (_off : Offset) (_data : Word) (s : State) :
    Host.Outcome State Fault Refusal :=
  transact s (refuse write)

end Sys2Proof.Machine
end

