-- ==== Sys2Proof/Machine/Commands.lean ====
section
/-! DEFINITION. Command acceptance (41_commands.md R64 to R72) and the write of CMD (40_bus_access.md R55). The four
command rows are the write of their word. Log 10. -/

namespace Sys2Proof.Machine

/-- The acceptance of a legal WRAP (41_commands.md R70). -/
def startWrap (s : State) : State :=
  { s.storeHalf 0 iv with
    op := .wrap, lenLatched := s.len, n := wrapBlocks s.len, t := 0, j := 0, i := 1, phase := .round }

/-- The acceptance of a legal UNWRAP (41_commands.md R71). -/
def startUnwrap (s : State) : State :=
  { s with
    op := .unwrap, lenLatched := s.len, n := unwrapBlocks s.len, t := roundCount (unwrapBlocks s.len),
    j := 5, i := unwrapBlocks s.len, phase := .round }

/-- NOP at acceptance: no effect (41_commands.md R65). -/
def acceptNop (s : State) : State := s

/-- WRAP at acceptance: the clearing, the length check, the start (41_commands.md R64). -/
def acceptWrap (s : State) : State :=
  if wrapLenOK s.nMax s.len then startWrap s.clearStatus else s.clearStatus.complete .invalidLength 0

/-- UNWRAP at acceptance: the clearing, the length check, the start (41_commands.md R64). -/
def acceptUnwrap (s : State) : State :=
  if unwrapLenOK s.nMax s.len then startUnwrap s.clearStatus else s.clearStatus.complete .invalidLength 0

/-- An illegal word at acceptance (41_commands.md R67). -/
def acceptIllegal (s : State) : State := s.clearStatus.complete .illegalCommand 0

/-- `Accept(w)`, the checks in the order of 41_commands.md R64. -/
def accept (w : Word) (s : State) : State :=
  if w = cmdNop then acceptNop s
  else if w = cmdWrap then acceptWrap s
  else if w = cmdUnwrap then acceptUnwrap s
  else acceptIllegal s

/-- WR CMD (40_bus_access.md R55). -/
def execWrCmd (data : Word) (s : State) : Host.Outcome State Fault Refusal :=
  transact s (writeIdle (accept data))

/-- The command NOP, written to CMD (41_commands.md R65). -/
def execNop (s : State) : Host.Outcome State Fault Refusal :=
  transact s (writeIdle acceptNop)

/-- The command WRAP, written to CMD: its acceptance step (43_wrap.md R81); its rounds are the engine's own steps. -/
def execWrap (s : State) : Host.Outcome State Fault Refusal :=
  transact s (writeIdle acceptWrap)

/-- The command UNWRAP, written to CMD: its acceptance step (44_unwrap.md R88); its rounds are the engine's own steps. -/
def execUnwrap (s : State) : Host.Outcome State Fault Refusal :=
  transact s (writeIdle acceptUnwrap)

/-- A command word by its fields OPC and MBZ, written to CMD; every well-formed one is illegal (41_commands.md R67). -/
def execIllegal (opc : BitVec 4) (mbz : BitVec 28) (s : State) : Host.Outcome State Fault Refusal :=
  transact s (writeIdle (accept (mbz ++ opc)))

end Sys2Proof.Machine
end

