-- ==== Sys2Proof/Machine/Registers.lean ====
section
/-! DEFINITION. Reads and writes of the named registers (40_bus_access.md R53 to R60), but for the write of CMD. -/

namespace Sys2Proof.Machine

/-- RD ID (40_bus_access.md R53). -/
def execRdId (s : State) : Host.Outcome State Fault Refusal :=
  transact s fun s => s.readOkay idValue

/-- RD CAPS (40_bus_access.md R53). -/
def execRdCaps (s : State) : Host.Outcome State Fault Refusal :=
  transact s fun s => s.readOkay (capsWord s.nMax)

/-- RD CMD: reads 0 (40_bus_access.md R55). -/
def execRdCmd (s : State) : Host.Outcome State Fault Refusal :=
  transact s fun s => s.readOkay 0

/-- RD STATUS (40_bus_access.md R56). -/
def execRdStatus (s : State) : Host.Outcome State Fault Refusal :=
  transact s fun s => s.readOkay s.statusWord

/-- RD LEN (40_bus_access.md R58). -/
def execRdLen (s : State) : Host.Outcome State Fault Refusal :=
  transact s fun s => s.readOkay s.len

/-- RD OUTLEN (40_bus_access.md R59). -/
def execRdOutlen (s : State) : Host.Outcome State Fault Refusal :=
  transact s fun s => s.readOkay s.outlen

/-- RD IRQ_EN (40_bus_access.md R60). -/
def execRdIrqEn (s : State) : Host.Outcome State Fault Refusal :=
  transact s fun s => s.readOkay s.irqEnWord

/-- WR ID: a read-only register (40_bus_access.md R54). -/
def execWrId (_data : Word) (s : State) : Host.Outcome State Fault Refusal :=
  transact s State.writeRefused

/-- WR CAPS: a read-only register (40_bus_access.md R54). -/
def execWrCaps (_data : Word) (s : State) : Host.Outcome State Fault Refusal :=
  transact s State.writeRefused

/-- WR OUTLEN: a read-only register (40_bus_access.md R54). -/
def execWrOutlen (_data : Word) (s : State) : Host.Outcome State Fault Refusal :=
  transact s State.writeRefused

/-- WR STATUS: allowed at any time (40_bus_access.md R57). -/
def execWrStatus (data : Word) (s : State) : Host.Outcome State Fault Refusal :=
  transact s fun s => (s.writeStatus data).writeOkay

/-- WR LEN: refused while busy (40_bus_access.md R58). -/
def execWrLen (data : Word) (s : State) : Host.Outcome State Fault Refusal :=
  transact s (writeIdle (State.writeLen data))

/-- WR IRQ_EN: allowed at any time (40_bus_access.md R60). -/
def execWrIrqEn (data : Word) (s : State) : Host.Outcome State Fault Refusal :=
  transact s fun s => (s.writeIrqEn data).writeOkay

end Sys2Proof.Machine
end

