-- ==== Sys2Proof/Machine/Dispatch.lean ====
section
/-! DEFINITION. The meaning of each instruction: one arm per constructor, one call per arm. -/

namespace Sys2Proof.Machine

def exec (i : Instr) (s : State) : Host.Outcome State Fault Refusal :=
  match i with
  -- format CMD: the command word written to CMD
  | .nop => Sys2Proof.Machine.execNop s
  | .wrap => Sys2Proof.Machine.execWrap s
  | .unwrap => Sys2Proof.Machine.execUnwrap s
  | .illegal opc mbz => Sys2Proof.Machine.execIllegal opc mbz s
  -- format BUS: reads of the named registers
  | .rdId => Sys2Proof.Machine.execRdId s
  | .rdCaps => Sys2Proof.Machine.execRdCaps s
  | .rdCmd => Sys2Proof.Machine.execRdCmd s
  | .rdStatus => Sys2Proof.Machine.execRdStatus s
  | .rdLen => Sys2Proof.Machine.execRdLen s
  | .rdOutlen => Sys2Proof.Machine.execRdOutlen s
  | .rdIrqEn => Sys2Proof.Machine.execRdIrqEn s
  -- format BUS: writes of the named registers
  | .wrId data => Sys2Proof.Machine.execWrId data s
  | .wrCaps data => Sys2Proof.Machine.execWrCaps data s
  | .wrCmd data => Sys2Proof.Machine.execWrCmd data s
  | .wrStatus data => Sys2Proof.Machine.execWrStatus data s
  | .wrLen data => Sys2Proof.Machine.execWrLen data s
  | .wrOutlen data => Sys2Proof.Machine.execWrOutlen data s
  | .wrIrqEn data => Sys2Proof.Machine.execWrIrqEn data s
  -- format BUS: BUF and everything else
  | .rdBuf off => Sys2Proof.Machine.execRdBuf off s
  | .wrBuf off data => Sys2Proof.Machine.execWrBuf off data s
  | .refused size write off data => Sys2Proof.Machine.execRefused size write off data s

end Sys2Proof.Machine
end

