-- ==== Sys2Proof/Machine/Engine.lean ====
section
/-! DEFINITION. The engine's own steps: the cipher request, the rounds of WRAP and UNWRAP with their sequencing, and the
final steps with the integrity comparator (42_cipher_routing.md, 43_wrap.md, 44_unwrap.md). A round is two moves: the
engine issues the request, and the cipher's cack completes the round in the same step (42_cipher_routing.md R74). Log 6. -/

namespace Sys2Proof.Machine

/-- The sequencer names a block of the running command inside BUF (10_state.md R27). -/
def State.blockOK (s : State) : Bool :=
  decide (1 ≤ s.i.toNat) && decide (s.i.toNat ≤ s.n.toNat) && decide (s.n.toNat ≤ s.nMax)

/-- The block sent: `A ‖ R[i]` in WRAP, `ctr(A, t) ‖ R[i]` in UNWRAP (42_cipher_routing.md R78). -/
def cipherInput (s : State) : Block :=
  match s.op with
  | .wrap => s.regA ++ s.regR s.i.toNat
  | .unwrap => ctr s.regA s.t ++ s.regR s.i.toNat

/-- Issue the request: `cin <- V; cdir <- dir; creq <- 1` (42_cipher_routing.md R74). Until the answer comes, `cout` keeps the
last block: DESIGN CHOICE, log 19. -/
def issue (s : State) : State :=
  { s with cin := cipherInput s, cdir := opDir s.op, creq := true }

/-- The answer is latched: `B <- cout; creq <- 0` (42_cipher_routing.md R74). From then on, while `creq = 0`, `cin` and `cdir`
keep the last request and `cout` keeps this answer. The rule holds `cin` and `cdir` stable only while `creq = 1`, and
93_implementation_defined.md U2 leaves `cin` and `cout` at any value: that they keep the last blocks is the model's choice.
DESIGN CHOICE, log 19. Unsafe for a claim about these latches while `creq = 0`; no rule reads them then. -/
def latch (b : Block) (s : State) : State := { s with cout := b, creq := false }

/-- The order of WRAP's rounds (43_wrap.md R83), before the test for the last one. -/
def nextBlockWrap (s : State) : State :=
  if s.i.toNat < s.n.toNat then { s with i := s.i + 1 } else { s with i := 1, j := s.j + 1 }

/-- `Advance` after a WrapRound (43_wrap.md R83). -/
def advanceWrap (s : State) : State :=
  if (nextBlockWrap s).j = 6 then { nextBlockWrap s with phase := .final } else nextBlockWrap s

/-- The order of UNWRAP's rounds (44_unwrap.md R90), before the test for the last one. -/
def nextBlockUnwrap (s : State) : State :=
  if 1 < s.i.toNat then { s with i := s.i - 1 } else { s with i := s.n, j := s.j - 1 }

/-- `Advance` after an UnwrapRound; j = 7 reads as −1 (44_unwrap.md R90, 10_state.md R18). -/
def advanceUnwrap (s : State) : State :=
  if (nextBlockUnwrap s).j = 7 then { nextBlockUnwrap s with phase := .final } else nextBlockUnwrap s

/-- A and R[i] take the two halves of an answer (42_cipher_routing.md R78). -/
def storeRound (a r : Half) (s : State) : State := (s.storeHalf 0 a).storeHalf (8 * s.i.toNat) r

/-- WrapRound with the answer `b`: t is incremented, then encoded into A (43_wrap.md R82). -/
def wrapRound (b : Block) (s : State) : State :=
  advanceWrap { storeRound (ctr (msb8 b) (s.t + 1)) (lsb8 b) s with t := s.t + 1 }

/-- UnwrapRound with the answer `b`: t was encoded into the request and is decremented (44_unwrap.md R89). -/
def unwrapRound (b : Block) (s : State) : State :=
  advanceUnwrap { storeRound (msb8 b) (lsb8 b) s with t := s.t - 1 }

/-- The round of the running command with the answer `b`. -/
def roundWith (b : Block) (s : State) : State :=
  match s.op with
  | .wrap => wrapRound b (latch b s)
  | .unwrap => unwrapRound b (latch b s)

/-- WrapFinal: `complete(NONE, L + 8)` (43_wrap.md R85). -/
def wrapFinal (s : State) : State := s.complete .none (s.lenLatched + 8)

/-- The integrity comparator: all 8 bytes of A against the IV (44_unwrap.md R91). -/
def integrityOK (s : State) : Bool := decide (s.regA = iv)

/-- UnwrapSuccess: `complete(NONE, L − 8)` (44_unwrap.md R92). -/
def unwrapSuccess (s : State) : State := s.complete .none (s.lenLatched - 8)

/-- UnwrapFail: `BUF[0..8(n+1)) <- 0`, then `complete(INTEGRITY_FAILURE, 0)`, in one step (44_unwrap.md R93). -/
def unwrapFail (s : State) : State := (s.zeroBuf (8 * (s.n.toNat + 1))).complete .integrityFailure 0

/-- UnwrapFinal (44_unwrap.md R91). -/
def unwrapFinal (s : State) : State := if integrityOK s then unwrapSuccess s else unwrapFail s

/-- The final step of the running command. -/
def finalStep (s : State) : State :=
  match s.op with
  | .wrap => wrapFinal s
  | .unwrap => unwrapFinal s

/-- The engine's turn: nothing while IDLE; in ROUND it issues its request, or waits while one is outstanding
(42_cipher_routing.md R75); in FINAL it completes the command. -/
def engineTurn (s : State) : Host.Outcome State Fault Refusal :=
  match s.phase with
  | .idle => .next s
  | .round =>
    if s.creq then .next s
    else if s.blockOK then .next (issue s)
    else .fault .sequencerOutOfRange
  | .final => if s.n.toNat ≤ s.nMax then .next (finalStep s) else .fault .sequencerOutOfRange

/-- The cipher's turn: cack with the answer `b`. Without a request it is ignored (70_reset_and_hazards.md R114); with one
the round completes (43_wrap.md R82, 44_unwrap.md R89). -/
def cipherTurn (b : Block) (s : State) : Host.Outcome State Fault Refusal :=
  if s.creq then
    if s.phase = .round ∧ s.blockOK = true then .next (roundWith b s) else .fault .sequencerOutOfRange
  else .next s

end Sys2Proof.Machine
end

