-- ==== Sys2Proof/Machine/Agents.lean ====
section
/-! DEFINITION. The moves of the agents (00_scope.md R10): the host's transaction, the engine's turn, the cipher's answer,
and the reset line. Step.lean only chooses among them. -/

namespace Sys2Proof.Machine

/-- A move begins: the event leaves the agenda, and the bus slave's answer to the previous transaction falls
(42_cipher_routing.md R73). Log 8. -/
def State.beginTurn (rest : List Event) (s : State) : State :=
  { s with agenda := rest, response := none }

/-- The host's move: the transaction is decoded and run (40_bus_access.md R51, R52). -/
def hostTurn (h : HostWord) (s : State) : Host.Outcome State Fault Refusal :=
  exec (decode s.nMax h) s

/-- The answer of a cipher to the outstanding request (42_cipher_routing.md R74). -/
def cipherAnswer (c : Cipher) (s : State) : Block := Cipher.answer c s.cdir s.cin

/-- Every state element at its reset value, BUF at a new draw, which may depend on what it held
(10_state.md R28, 70_reset_and_hazards.md R108, R109; log 2). N_MAX
and the agenda are not state of the engine. Log 7. -/
def resetWith (level : Bool) (s : State) : State :=
  { State.reset with nMax := s.nMax, rstN := level, bufHistory := s.buf :: s.bufHistory, agenda := s.agenda }

/-- The reset line: while it is 0, and on the edge where it returns to 1, every state element takes its reset value
(70_reset_and_hazards.md R108). -/
def rstTurn (level : Bool) (s : State) : Host.Outcome State Fault Refusal :=
  if level && s.rstN then .next s else .next (resetWith level s)

/-- One move. -/
def turn (e : Event) (s : State) : Host.Outcome State Fault Refusal :=
  match e with
  | .host h => hostTurn h s
  | .engine => engineTurn s
  | .cack => cipherTurn (cipherAnswer Config.cipher s) s
  | .cackWith b => cipherTurn b s
  | .rst level => rstTurn level s

/-- The host puts a transaction on the bus as the next move. -/
def State.withHostWord (h : HostWord) (s : State) : State := { s with agenda := .host h :: s.agenda }

end Sys2Proof.Machine
end

