-- ==== Sys2Proof/Machine/Step.lean ====
section
/-! DEFINITION. One step of the machine: the next move on the agenda, and the engine's own turn where the agenda is empty. -/

namespace Sys2Proof.Machine

/-- One step. An empty agenda is an engine that nobody disturbs: it goes on by itself, and waits where it needs the cipher
(42_cipher_routing.md R75). Log 5. -/
def step (s : State) : Host.Outcome State Fault Refusal :=
  match s.agenda with
  | [] => turn .engine (s.beginTurn [])
  | e :: rest => turn e (s.beginTurn rest)

/-- `s` with the transaction of a table word as its very next move. Log 5, log 9. -/
def State.withFetchWord (s : State) (nbits w : Nat) : State :=
  match tableHostWord nbits w with
  | some h => s.withHostWord h
  | none => s

end Sys2Proof.Machine
end

