-- ==== Sys2Proof/Machine/HostScript.lean ====
section
/-! DEFINITION. The host-script syntax and its pseudo-instructions (30_encoding.md R49, R50): the transaction of each line,
the answer it expects, and the lines each pseudo-instruction stands for. -/

namespace Sys2Proof.Machine

/-- One line of a host script (30_encoding.md R49). -/
inductive ScriptLine
  /-- `WR off, data`: the response must be OKAY. -/
  | wr (off : Offset) (data : Word)
  /-- `WR! off, data`: the response must be SLVERR. -/
  | wrErr (off : Offset) (data : Word)
  /-- `RD off -> data`: OKAY with this data. -/
  | rd (off : Offset) (data : Word)
  /-- `RD! off -> data`: SLVERR, with this data. The rule names the response alone; that the data must be equal too is the
  model's choice. DESIGN CHOICE, log 20. Safe. -/
  | rdErr (off : Offset) (data : Word)
  /-- `POLL off, mask, val`: read until `(data & mask) == val`. The rule names no response; that each of the reads must
  answer OKAY, as an `RD` line must, is the model's choice. DESIGN CHOICE, log 20. Safe. -/
  | poll (off : Offset) (mask val : Word)
  /-- `; text`. -/
  | comment (text : String)
deriving DecidableEq, Repr

/-- What the host does after an answer to a line's transaction. -/
inductive Verdict
  /-- The line is done. -/
  | pass
  /-- A POLL reads again. -/
  | again
  /-- The answer is not the one the line expects. -/
  | mismatch
deriving DecidableEq, Repr

/-- The transaction a line issues; a comment issues none (30_encoding.md R49). -/
def ScriptLine.transaction : ScriptLine → Option HostWord
  | .wr off data => some (.bus (descriptor 2 true off data))
  | .wrErr off data => some (.bus (descriptor 2 true off data))
  | .rd off _ => some (.bus (descriptor 2 false off 0))
  | .rdErr off _ => some (.bus (descriptor 2 false off 0))
  | .poll off _ _ => some (.bus (descriptor 2 false off 0))
  | .comment _ => none

/-- A verdict that is a pass or a mismatch. -/
def passIf (b : Bool) : Verdict := if b then .pass else .mismatch

/-- A line's verdict on the answer it got (30_encoding.md R49). Two points are the model's choice, which the rule leaves open
(DESIGN CHOICE, log 20): an `RD!` line compares the data as an `RD` line does, and a read of a POLL that answers SLVERR is a
mismatch, never a pass and never a reason to read again. -/
def ScriptLine.verdict (r : BusResponse) : ScriptLine → Verdict
  | .wr _ _ => passIf (decide (r.resp = .okay))
  | .wrErr _ _ => passIf (decide (r.resp = .slverr))
  | .rd _ data => passIf (decide (r.resp = .okay ∧ r.data = some data))
  | .rdErr _ data => passIf (decide (r.resp = .slverr ∧ r.data = some data))
  | .poll _ mask val =>
    match r.resp, r.data with
    | .okay, some d => if d &&& mask = val then .pass else .again
    | .okay, none => .mismatch
    | .slverr, _ => .mismatch
  | .comment _ => .pass

/-- The pseudo-instructions (30_encoding.md R50). -/
inductive Pseudo
  | cmdWrap | cmdUnwrap | cmdNop
  /-- `LOADB k, bytes`. -/
  | loadB (k : Nat) (bytes : List Byte)
  /-- `DUMPB k, 4m`. The rule does not say where the `<word>` of each `RD` line comes from; the model's choice is the list of
  the words that the host expects, which stands in the place of the byte count: its length is `m`. DESIGN CHOICE, log 22. Safe. -/
  | dumpB (k : Nat) (words : List Word)
  | waitDone | clrDone
deriving DecidableEq, Repr

/-- The window offset `BUF+k`, that is `0x100 + k` (30_encoding.md R49). Above 0xFFF the name has no 12-bit OFF and the rule
gives it none; the model's choice is 0xFFF, which no engine decodes, so that the transaction answers SLVERR as
40_bus_access.md R51 and R52 do for an offset above 0xFFF. DESIGN CHOICE, log 22. Safe. -/
def bufOffset (k : Nat) : Offset := if bufBase + k ≤ 0xFFF then BitVec.ofNat 12 (bufBase + k) else 0xFFF

/-- The writes of LOADB, four bytes each; bytes that make up no whole word cannot be written (30_encoding.md R50) and are left
out. Any `k` expands, also one that is no multiple of 4. DESIGN CHOICE for both, log 22. Safe. -/
def loadLines : Nat → List Byte → List ScriptLine
  | k, b0 :: b1 :: b2 :: b3 :: rest => .wr (bufOffset k) (le32 b0 b1 b2 b3) :: loadLines (k + 4) rest
  | _, _ => []

/-- The reads of DUMPB (30_encoding.md R50), for any `k`, each with the word it must read: the rule leaves the word of a line
open. DESIGN CHOICE for both, log 22. Safe. -/
def dumpLines : Nat → List Word → List ScriptLine
  | _, [] => []
  | k, w :: rest => .rd (bufOffset k) w :: dumpLines (k + 4) rest

/-- The expansion of a pseudo-instruction (30_encoding.md R50). -/
def Pseudo.expand : Pseudo → List ScriptLine
  | .cmdWrap => [.wr (regOffset .cmd) Sys2Proof.Machine.cmdWrap]
  | .cmdUnwrap => [.wr (regOffset .cmd) Sys2Proof.Machine.cmdUnwrap]
  | .cmdNop => [.wr (regOffset .cmd) Sys2Proof.Machine.cmdNop]
  | .loadB k bytes => loadLines k bytes
  | .dumpB k words => dumpLines k words
  | .waitDone => [.poll (regOffset .status) 0x00000003 0x00000002]
  | .clrDone => [.wr (regOffset .status) 0x00000002]

end Sys2Proof.Machine
end

