-- ==== Sys2Proof/Machine/Ports.lean ====
section
/-! DEFINITION. The engine's ports (42_cipher_routing.md R73): the outputs as functions of the state, and the bus inputs as a
transaction. `clk` is the step itself (log 14); `cack` and the cipher's `cout` arrive as events; `rst_n` is a field of State. -/

namespace Sys2Proof.Machine

/-- The output ports. `rdata` and `slverr` carry a value only in a step that completes a transaction (log 8). -/
structure Outputs where
  ready : Bool
  rdata : Option Word
  slverr : Option Bool
  irq : Bool
  creq : Bool
  cdir : Bool
  cin : Block
deriving DecidableEq, Repr

/-- `cdir` on its wire: 0 encrypt, 1 decrypt (42_cipher_routing.md R73). -/
def Dir.wire : Dir → Bool
  | .encrypt => false
  | .decrypt => true

/-- The level of every output port in a state. -/
def State.outputs (s : State) : Outputs where
  ready := s.response.isSome
  rdata := s.response.bind BusResponse.data
  slverr := s.response.map fun r => decide (r.resp = .slverr)
  irq := s.irq
  creq := s.creq
  cdir := s.cdir.wire
  cin := s.cin

/-- The transaction on the bus inputs while `sel` is 1 (42_cipher_routing.md R73, 30_encoding.md R47). -/
def transactionOfPins (write : Bool) (size : BitVec 2) (addr : Offset) (wdata : Word) : HostWord :=
  .bus (descriptor size write addr wdata)

end Sys2Proof.Machine
end

