-- ==== Sys2Proof/Safety.lean ====
section
/-! DEFINITION. The terms in which claims about the engine are written: its invariant (10_state.md R27), what is hidden from
the host (10_state.md R26), runs in which one cipher answers every request (70_reset_and_hazards.md R112), and RFC 3394's
loops as the source gives them (43_wrap.md R81, 44_unwrap.md R88). -/

namespace Sys2Proof.Machine

/-- The invariants of 10_state.md R27, with what they rest on: a legal capacity, BUF's canonical form inside BUF, the length
register held while a command runs (20_memory.md R40), the request that is outstanding, and reset asserted. -/
structure State.Inv (s : State) : Prop where
  capacity : Config.LegalNMax s.nMax
  memForm : Memory.wf s.buf
  memRange : ∀ c ∈ s.buf, c.1 < bufSize s.nMax
  busyStatus : s.busy = true → s.done = false ∧ s.err = .none ∧ s.outlen = 0
  busyBlocks : s.busy = true → 2 ≤ s.n.toNat ∧ s.n.toNat ≤ s.nMax
  busyLen : s.busy = true → s.lenLatched = s.len
  wrapLen : s.busy = true → s.op = .wrap → s.lenLatched.toNat = 8 * s.n.toNat
  unwrapLen : s.busy = true → s.op = .unwrap → s.lenLatched.toNat = 8 * (s.n.toNat + 1)
  roundRange : s.phase = .round → s.j.toNat ≤ 5 ∧ 1 ≤ s.i.toNat ∧ s.i.toNat ≤ s.n.toNat
  roundWrap : s.phase = .round → s.op = .wrap → s.t.toNat + 1 = s.n.toNat * s.j.toNat + s.i.toNat
  roundUnwrap : s.phase = .round → s.op = .unwrap → s.t.toNat = s.n.toNat * s.j.toNat + s.i.toNat
  finalWrap : s.phase = .final → s.op = .wrap → s.t.toNat = 6 * s.n.toNat
  finalUnwrap : s.phase = .final → s.op = .unwrap → s.t.toNat = 0
  request : s.creq = true → s.phase = .round ∧ s.cin = cipherInput s ∧ s.cdir = opDir s.op
  failureLen : s.err ≠ .none → s.outlen = 0
  inReset : s.rstN = false → s.phase = .idle ∧ s.done = false

/-- A powered-on engine of capacity `nMax`, with an agenda that some scheduler chose. -/
def State.boot (nMax : Nat) (agenda : List Event) : State := { State.reset with nMax := nMax, agenda := agenda }

/-- The next move is the engine's own turn, with `rest` left on the agenda: it stands there, or the agenda is empty and the
engine goes on by itself. Log 5. -/
def State.EngineMovesNext (s : State) (rest : List Event) : Prop :=
  s.agenda = .engine :: rest ∨ (s.agenda = [] ∧ rest = [])

/-- Two states that differ at most in key data and in the cipher's blocks (10_state.md R26), and in what
BUF held at earlier resets. -/
def SameButSecrets (s t : State) : Prop :=
  { s with buf := t.buf, cin := t.cin, cout := t.cout, bufHistory := t.bufHistory } = t

/-- Two states whose bytes of BUF agree from index `a` on. -/
def SameFrom (a : Nat) (s t : State) : Prop := ∀ k, a ≤ k → t.bufByte k = s.bufByte k

/-- The values of `count` consecutive blocks of BUF from block `first` on; block 0 is A (10_state.md R11). -/
def State.blocks (s : State) (first count : Nat) : List Half :=
  (List.range count).map fun k => s.regR (first + k)

/-- The move that lets a running command go on: the cipher `c` answers an outstanding request, else the engine moves. -/
def nextMove (c : Cipher) (s : State) : Event :=
  if s.creq then .cackWith (cipherAnswer c s) else .engine

/-- `count` such moves: a command served by one cipher under one KEK (70_reset_and_hazards.md R112). -/
def serve (c : Cipher) : Nat → State → Host.Outcome State Fault Refusal
  | 0, s => .next s
  | count + 1, s =>
    match step { s with agenda := [nextMove c s] } with
    | .next t => serve c count t
    | .fault r => .fault r
    | .refused r => .refused r

/-- The moves of a whole command whose cipher gives these answers, one to each request (42_cipher_routing.md R74, R80). -/
def commandMoves (answers : List Block) : List Event :=
  (answers.flatMap fun b => [Event.engine, Event.cackWith b]) ++ [Event.engine]

/-- WRAP's inner loop of the source: blocks i = 1..n, the counter going up from `t` (43_wrap.md R81). -/
def rfcWrapPass (enc : Block → Block) : Nat → Half → List Half → Half × List Half
  | _, a, [] => (a, [])
  | t, a, r :: rest =>
    let b := enc (a ++ r)
    let (a', rest') := rfcWrapPass enc (t + 1) (ctr (msb8 b) (BitVec.ofNat 32 (t + 1))) rest
    (a', lsb8 b :: rest')

/-- WRAP of the source: rounds j = 0..5 from A = IV (43_wrap.md R81). -/
def rfcWrap (enc : Block → Block) (p : List Half) : Half × List Half :=
  (List.range 6).foldl (fun x j => rfcWrapPass enc (p.length * j) x.1 x.2) (iv, p)

/-- UNWRAP's inner loop of the source: blocks i = n..1, the counter going down to `t + 1` (44_unwrap.md R88). -/
def rfcUnwrapPass (dec : Block → Block) : Nat → Half → List Half → Half × List Half
  | _, a, [] => (a, [])
  | t, a, r :: rest =>
    let (a', rest') := rfcUnwrapPass dec (t + 1) a rest
    let b := dec (ctr a' (BitVec.ofNat 32 (t + 1)) ++ r)
    (msb8 b, lsb8 b :: rest')

/-- UNWRAP of the source before its comparison: rounds j = 5..0 (44_unwrap.md R88). -/
def rfcUnwrap (dec : Block → Block) (a : Half) (c : List Half) : Half × List Half :=
  [5, 4, 3, 2, 1, 0].foldl (fun x j => rfcUnwrapPass dec (c.length * j) x.1 x.2) (a, c)

end Sys2Proof.Machine
end

