-- ==== Sys2Proof/Certificates/Slice0/Obligations.lean ====
section
/-! DEFINITION. The statements about the KW engine, each from the numbered rules of spec/ that its docstring names. Where a
statement gives a next state whole, it says that `cdir`, `cin` and `cout` keep their last values while no request is
outstanding, and `op` its last value while the engine is idle. The spec gives them none then (93_implementation_defined.md U2,
10_state.md R18), and keeping them is the model's choice (logs 19 and 21). -/

open Sys2Proof Sys2Proof.Machine

/-! ## Reset -/

/-- 10_state.md R28: the value of every piece of state after reset, in an engine of any legal capacity. BUF holds its draws;
`op`, `cin` and `cout` are left out, as the rule leaves them unspecified. -/
def Obligations.ResetLeavesEveryRegisterAtItsValue : Prop :=
  ∀ (nMax : Nat) (agenda : List Event), Config.LegalNMax nMax →
    let s := State.boot nMax agenda
    (∀ k, s.bufByte k = s.unwrittenByte k) ∧
    s.busy = false ∧ s.done = false ∧ s.err = .none ∧ s.statusWord = 0 ∧ s.len = 0 ∧ s.outlen = 0 ∧ s.doneIE = false ∧
    exec .rdId s = .next { s with response := some ⟨some 0x4B573394, .okay⟩ } ∧
    exec .rdCaps s = .next { s with response := some ⟨some (BitVec.ofNat 32 nMax), .okay⟩ } ∧
    s.t = 0 ∧ s.lenLatched = 0 ∧ s.n = 0 ∧ s.j = 0 ∧ s.i = 0 ∧ s.phase = .idle ∧ s.creq = false ∧ s.cdir = .encrypt ∧
    s.irq = false

/-- The invariant of 10_state.md R27 holds at reset, for every legal capacity and every schedule. -/
def Obligations.ResetMeetsTheInvariant : Prop :=
  State.reset.Inv ∧ ∀ (nMax : Nat) (agenda : List Event), Config.LegalNMax nMax → (State.boot nMax agenda).Inv

/-- 70_reset_and_hazards.md R108, R109: whatever the engine was doing, the reset line going low puts every register at its
reset value and BUF at new draws, with irq low; while it is low the engine and the cipher change nothing. The model's choices:
each level of the line is one event (log 7), and the bus answer of an earlier step falls in a step of the engine or the cipher
(log 8). -/
def Obligations.ResetAbandonsEverything : Prop :=
  ∀ (s : State) (rest : List Event), s.agenda = .rst false :: rest →
    ∃ t, step s = .next t ∧
      t.rstN = false ∧ t.nMax = s.nMax ∧ t.agenda = rest ∧
      t.busy = false ∧ t.done = false ∧ t.err = .none ∧ t.len = 0 ∧ t.outlen = 0 ∧ t.doneIE = false ∧
      t.phase = .idle ∧ t.t = 0 ∧ t.lenLatched = 0 ∧ t.n = 0 ∧ t.j = 0 ∧ t.i = 0 ∧ t.creq = false ∧ t.cdir = .encrypt ∧
      t.irq = false ∧ (∀ k, t.bufByte k = t.unwrittenByte k) ∧
      (∀ e more, e = .engine ∨ e = .cack ∨ (∃ b, e = .cackWith b) →
        step { t with agenda := e :: more } = .next { t with agenda := more, response := none }) ∧
      (∀ more, ∃ u, step { t with agenda := .rst true :: more } = .next u ∧ u.rstN = true ∧ u.busy = false ∧
        u.done = false ∧ u.err = .none ∧ u.len = 0 ∧ u.outlen = 0 ∧ u.doneIE = false ∧ u.creq = false ∧ u.nMax = s.nMax)

/-- 93_implementation_defined.md U12, 70_reset_and_hazards.md R108: the slave answers no transaction while reset is asserted;
the model refuses each by name (log 7, the model's choice of stop). -/
def Obligations.TransactionsDuringResetAreRefused : Prop :=
  ∀ (i : Instr) (s : State), s.rstN = false → exec i s = .refused .busDuringReset

/-! ## The invariant and the memory form -/

/-- 10_state.md R27: every step keeps the invariant, from every state that has it. -/
def Obligations.EveryStepKeepsTheInvariant : Prop :=
  ∀ s t : State, s.Inv → step s = .next t → t.Inv

/-- The engine never traps (60_exceptions.md R98): no step faults from a state with the invariant. -/
def Obligations.NoStepFaultsUnderTheInvariant : Prop :=
  ∀ (s : State) (r : Fault), s.Inv → step s ≠ .fault r

/-- From power-on, under every schedule, the engine never traps and keeps its invariant. -/
def Obligations.EveryRunFromPowerOnIsSafe : Prop :=
  ∀ (nMax : Nat) (agenda : List Event) (k : Nat), Config.LegalNMax nMax →
    (∀ r, Host.Core.run Sys2Proof.core k (State.boot nMax agenda) ≠ .fault r) ∧
    (∀ t, Host.Core.run Sys2Proof.core k (State.boot nMax agenda) = .next t → State.Inv t ∧ State.nMax t = nMax)

/-- BUF's cells keep their canonical form and stay inside BUF (10_state.md R11), from every state and without the invariant. -/
def Obligations.EveryStepKeepsTheMemoryForm : Prop :=
  ∀ s t : State, step s = .next t → Memory.wf s.buf → (∀ c ∈ s.buf, c.1 < bufSize s.nMax) →
    Memory.wf t.buf ∧ ∀ c ∈ t.buf, c.1 < bufSize t.nMax

/-! ## Encoding -/

/-- 30_encoding.md R43 to R48: decoding an encoded well-formed instruction gives it back, with every operand. -/
def Obligations.DecodeUndoesEncode : Prop :=
  ∀ (nMax : Nat) (i : Instr), i.wf nMax = true → decode nMax (encode i) = i

/-- 30_encoding.md R47, R48: whatever is decoded is well formed, and encodes back to the same bits, but that a decoded read
ignores DATA. -/
def Obligations.EncodeUndoesDecode : Prop :=
  ∀ (nMax : Nat) (h : HostWord),
    (decode nMax h).wf nMax = true ∧
    (∀ w, h = .cmd w → encode (decode nMax h) = h) ∧
    (∀ d, h = .bus d → decodes nMax (descSize d) (descOff d) = false ∨ descWrite d = true ∨ descData d = 0 →
      encode (decode nMax h) = h) ∧
    (∀ d, h = .bus d → decodes nMax (descSize d) (descOff d) = true → descWrite d = false →
      encode (decode nMax h) = .bus (descriptor 2 false (descOff d) 0))

/-- 30_encoding.md R48: the rows of the transaction decode, by the fields of the descriptor. -/
def Obligations.TransactionDecodeFollowsItsTable : Prop :=
  ∀ (nMax : Nat) (data : Word),
    decode nMax (.bus (descriptor 2 false 0x000 data)) = .rdId ∧
    decode nMax (.bus (descriptor 2 false 0x004 data)) = .rdCaps ∧
    decode nMax (.bus (descriptor 2 false 0x008 data)) = .rdCmd ∧
    decode nMax (.bus (descriptor 2 false 0x00C data)) = .rdStatus ∧
    decode nMax (.bus (descriptor 2 false 0x010 data)) = .rdLen ∧
    decode nMax (.bus (descriptor 2 false 0x014 data)) = .rdOutlen ∧
    decode nMax (.bus (descriptor 2 false 0x018 data)) = .rdIrqEn ∧
    decode nMax (.bus (descriptor 2 true 0x000 data)) = .wrId data ∧
    decode nMax (.bus (descriptor 2 true 0x004 data)) = .wrCaps data ∧
    decode nMax (.bus (descriptor 2 true 0x014 data)) = .wrOutlen data ∧
    decode nMax (.bus (descriptor 2 true 0x008 data)) = .wrCmd data ∧
    decode nMax (.bus (descriptor 2 true 0x00C data)) = .wrStatus data ∧
    decode nMax (.bus (descriptor 2 true 0x010 data)) = .wrLen data ∧
    decode nMax (.bus (descriptor 2 true 0x018 data)) = .wrIrqEn data ∧
    (∀ off : Offset, off.toNat % 4 = 0 → 0x100 ≤ off.toNat → off.toNat ≤ 0x100 + 8 * (nMax + 1) - 4 →
      decode nMax (.bus (descriptor 2 false off data)) = .rdBuf off ∧
      decode nMax (.bus (descriptor 2 true off data)) = .wrBuf off data) ∧
    (∀ (size : BitVec 2) (write : Bool) (off : Offset),
      size ≠ 2 ∨ off.toNat % 4 ≠ 0 ∨ (0x01C ≤ off.toNat ∧ off.toNat ≤ 0x0FF) ∨ 0x100 + 8 * (nMax + 1) ≤ off.toNat →
      decode nMax (.bus (descriptor size write off data)) = .refused size write off data)

/-- 30_encoding.md R44, R45: the complete decode of a command word, exact on all 32 bits. -/
def Obligations.CommandDecodeIsExact : Prop :=
  ∀ nMax : Nat,
    decode nMax (.cmd 0x00000000) = .nop ∧ decode nMax (.cmd 0x00000001) = .wrap ∧
    decode nMax (.cmd 0x00000002) = .unwrap ∧
    ∀ w : Word, w ≠ 0 → w ≠ 1 → w ≠ 2 → ∃ opc mbz, decode nMax (.cmd w) = .illegal opc mbz ∧ mbz ++ opc = w

/-- Words written out from the encodings of 30_encoding.md R43, R47 (and listed in 95_test_vectors.md part 3) decode to
their instructions; a sanity statement on fixed words. -/
def Obligations.WrittenOutWordsDecode : Prop :=
  decode 64 (.bus 0b10000000000000000000000000000000000000000000000#47) = .rdId ∧
  decode 64 (.bus 0b10100000000100000000000000000000000000000000001#47) = .wrCmd 1 ∧
  decode 64 (.bus 0b10100010000100000110011001000100001000100000000#47) = .wrBuf 0x108 0x33221100 ∧
  decode 64 (.bus 0b10000010001010000000000000000000000000000000000#47) = .rdBuf 0x114 ∧
  decode 64 (.bus 0b10000110000100000000000000000000000000000000000#47) = .refused 2 false 0x308 0 ∧
  decode 64 (.cmd 0b00000000000000000000000000000010#32) = .unwrap ∧
  decode 64 (.cmd 0b00000000000000000000000000010001#32) = .illegal 1 1

/-- 20_memory.md R30, 00_scope.md R5: the window offset of the system address KW_BASE + off is off, at every base. At a legal
base, which is 4096-byte aligned, the window is the one 4096-byte block of the base, and an address's low 12 bits are its
offset. -/
def Obligations.SystemAddressNamesItsOffset : Prop :=
  ∀ (kwBase : Nat) (off : Offset),
    windowOffset kwBase (systemAddress kwBase off) = some off ∧
    (Config.LegalKwBase kwBase →
      systemAddress kwBase off % 4096 = off.toNat ∧
      ∀ addr, windowOffset kwBase addr = if addr / 4096 = kwBase / 4096 then some (BitVec.ofNat 12 addr) else none)

/-! ## Steps and transactions -/

/-- A step whose next event is a host transaction runs the decoded instruction, after the event leaves the agenda (log 5) and
the slave's previous answer falls (log 8): both the model's choices. -/
def Obligations.StepRunsTheDecodedTransaction : Prop :=
  ∀ (s : State) (h : HostWord) (rest : List Event), s.agenda = .host h :: rest →
    step s = exec (decode s.nMax h) { s with agenda := rest, response := none }

/-- A transaction placed by `withFetchWord` is the very next one run, the slave's previous answer having fallen: the model's
choices (logs 5, 8 and 9). -/
def Obligations.FetchWordIsRunNext : Prop :=
  ∀ (s : State) (nbits w : Nat) (h : HostWord), tableHostWord nbits w = some h →
    step (s.withFetchWord nbits w) = exec (decode s.nMax h) { s with response := none }

/-- 20_memory.md R35, 30_encoding.md R48: out of reset every transaction is answered, in one step, with a response; none
faults. -/
def Obligations.EveryTransactionIsAnswered : Prop :=
  ∀ (i : Instr) (s : State), s.rstN = true →
    ∃ t r, exec i s = .next t ∧ t.response = some r ∧
      t.nMax = s.nMax ∧ t.rstN = s.rstN ∧ t.agenda = s.agenda ∧ t.bufHistory = s.bufHistory ∧
      t.creq = s.creq ∧ t.cdir = s.cdir ∧ t.cin = s.cin ∧ t.cout = s.cout

/-- 30_encoding.md R43, R44: a command row means the write of its word to CMD, for every command word and in every state. -/
def Obligations.CommandRowsAreWritesToCmd : Prop :=
  ∀ (nMax : Nat) (w : Word) (s : State), exec (decode nMax (.cmd w)) s = exec (.wrCmd w) s

/-- 40_bus_access.md R53: RD ID and RD CAPS, busy or not; nothing else changes. -/
def Obligations.IdAndCapsReadTheirConstants : Prop :=
  ∀ s : State, s.rstN = true →
    exec .rdId s = .next { s with response := some ⟨some 0x4B573394, .okay⟩ } ∧
    exec .rdCaps s = .next { s with response := some ⟨some ((BitVec.ofNat 16 s.nMax).setWidth 32), .okay⟩ }

/-- 40_bus_access.md R54: a write to ID, CAPS or OUTLEN answers SLVERR and writes nothing, busy or not. -/
def Obligations.ReadOnlyRegistersRefuseWrites : Prop :=
  ∀ (s : State) (data : Word), s.rstN = true →
    exec (.wrId data) s = .next { s with response := some ⟨none, .slverr⟩ } ∧
    exec (.wrCaps data) s = .next { s with response := some ⟨none, .slverr⟩ } ∧
    exec (.wrOutlen data) s = .next { s with response := some ⟨none, .slverr⟩ }

/-- 40_bus_access.md R55: RD CMD reads 0; WR CMD is refused exactly while busy, and else is Accept(w) answered OKAY. -/
def Obligations.CmdReadsZeroAndWritesAreAccepted : Prop :=
  ∀ (s : State) (w : Word), s.rstN = true →
    exec .rdCmd s = .next { s with response := some ⟨some 0, .okay⟩ } ∧
    (s.busy = true → exec (.wrCmd w) s = .next { s with response := some ⟨none, .slverr⟩ }) ∧
    (s.busy = false → exec (.wrCmd w) s = .next { accept w s with response := some ⟨none, .okay⟩ }) ∧
    (s.busy = false → exec (.wrCmd 0) s = .next { s with response := some ⟨none, .okay⟩ })

/-- 40_bus_access.md R56: STATUS reads BUSY | DONE<<1 | ERR<<4, always OKAY, and always 0x00000001 while busy. -/
def Obligations.StatusReadsItsFields : Prop :=
  ∀ s : State, s.rstN = true →
    ∃ d : Word, exec .rdStatus s = .next { s with response := some ⟨some d, .okay⟩ } ∧
      d.toNat = s.busy.toNat + 2 * s.done.toNat + 16 * s.err.code.toNat ∧
      (s.Inv → s.busy = true → d = 0x00000001)

/-- 40_bus_access.md R57: WR STATUS clears DONE where bit 1 is set, ignores the other bits, and has no effect while busy. -/
def Obligations.StatusWriteClearsDoneOnly : Prop :=
  ∀ (s : State) (d : Word), s.rstN = true →
    exec (.wrStatus d) s =
      .next { s with done := if d.getLsbD 1 then false else s.done, response := some ⟨none, .okay⟩ } ∧
    (s.Inv → s.busy = true → exec (.wrStatus d) s = .next { s with response := some ⟨none, .okay⟩ })

/-- 40_bus_access.md R58: RD LEN; WR LEN stores any word, and is refused while busy. -/
def Obligations.LenIsReadAndWritten : Prop :=
  ∀ (s : State) (d : Word), s.rstN = true →
    exec .rdLen s = .next { s with response := some ⟨some s.len, .okay⟩ } ∧
    (s.busy = true → exec (.wrLen d) s = .next { s with response := some ⟨none, .slverr⟩ }) ∧
    (s.busy = false → exec (.wrLen d) s = .next { s with len := d, response := some ⟨none, .okay⟩ }) ∧
    (∀ w t, exec (.wrCmd w) s = .next t → t.len = s.len)

/-- 40_bus_access.md R59: RD OUTLEN, always OKAY, and 0 while busy and after a failure. -/
def Obligations.OutlenIsRead : Prop :=
  ∀ s : State, s.rstN = true →
    exec .rdOutlen s = .next { s with response := some ⟨some s.outlen, .okay⟩ } ∧
    (s.Inv → s.busy = true ∨ s.err ≠ .none → s.outlen = 0)

/-- 40_bus_access.md R60: RD IRQ_EN; WR IRQ_EN stores bit 0, busy or not, and drives irq at once where DONE is set. -/
def Obligations.IrqEnableIsReadAndWritten : Prop :=
  ∀ (s : State) (d : Word), s.rstN = true →
    (∃ r : Word, exec .rdIrqEn s = .next { s with response := some ⟨some r, .okay⟩ } ∧ r.toNat = s.doneIE.toNat) ∧
    exec (.wrIrqEn d) s = .next { s with doneIE := d.getLsbD 0, response := some ⟨none, .okay⟩ } ∧
    (∀ t, exec (.wrIrqEn d) s = .next t → s.done = true → t.irq = d.getLsbD 0)

/-- 40_bus_access.md R61: RD BUF at every BUF offset: the four bytes by lanes when idle, SLVERR and 0 while busy. -/
def Obligations.BufWordIsRead : Prop :=
  ∀ (s : State) (off : Offset), s.rstN = true →
    0x100 ≤ off.toNat → off.toNat ≤ 0x100 + 8 * (s.nMax + 1) - 4 → off.toNat % 4 = 0 →
    let k := off.toNat - 0x100
    (s.busy = true → exec (.rdBuf off) s = .next { s with response := some ⟨some 0, .slverr⟩ }) ∧
    (s.busy = false → exec (.rdBuf off) s =
      .next { s with response := some ⟨some (s.bufByte (k + 3) ++ s.bufByte (k + 2) ++ s.bufByte (k + 1) ++ s.bufByte k),
                                       .okay⟩ })

/-- 40_bus_access.md R62: WR BUF at every BUF offset: byte m of the word goes to BUF[k+m] when idle, and no other byte and no
register changes; SLVERR and nothing while busy. -/
def Obligations.BufWordIsWritten : Prop :=
  ∀ (s : State) (off : Offset) (d : Word), s.rstN = true →
    0x100 ≤ off.toNat → off.toNat ≤ 0x100 + 8 * (s.nMax + 1) - 4 → off.toNat % 4 = 0 →
    let k := off.toNat - 0x100
    (s.busy = true → exec (.wrBuf off d) s = .next { s with response := some ⟨none, .slverr⟩ }) ∧
    (s.busy = false → ∃ t, exec (.wrBuf off d) s = .next t ∧
      t = { s with buf := t.buf, response := some ⟨none, .okay⟩ } ∧
      (∀ m, m < 4 → t.bufByte (k + m) = d.extractLsb' (8 * m) 8) ∧
      (∀ a, ¬ (k ≤ a ∧ a < k + 4) → t.bufByte a = s.bufByte a))

/-- 40_bus_access.md R63: every descriptor with another size, a misaligned offset or a reserved offset answers SLVERR, with
read data 0, and changes nothing, idle or busy; so does every well-formed operand of the row REFUSED. -/
def Obligations.UndecodedTransactionsAreRefused : Prop :=
  ∀ (s : State) (size : BitVec 2) (write : Bool) (off : Offset) (data : Word), s.rstN = true →
    ((Instr.refused size write off data).wf s.nMax = true → exec (.refused size write off data) s =
      .next { s with response := some ⟨if write then none else some 0, .slverr⟩ }) ∧
    (size ≠ 2 ∨ off.toNat % 4 ≠ 0 ∨ (0x01C ≤ off.toNat ∧ off.toNat ≤ 0x0FF) ∨ 0x100 + 8 * (s.nMax + 1) ≤ off.toNat →
      exec (decode s.nMax (.bus (descriptor size write off data))) s =
        .next { s with response := some ⟨if write then none else some 0, .slverr⟩ })

/-- The model's choice (log 18), no rule of the spec: what rows answer with operands that no bits decode to. RD BUF and WR BUF
outside BUF, and REFUSED with any operands, answer SLVERR with read data 0 and change nothing, also where the bus decodes that
offset as another row (RD BUF at 0x000 is not RD ID); ILLEGAL with any operands is the write of its word to CMD (with OPC = 1 and MBZ = 0 it is WRAP). -/
def Obligations.RowsWithOperandsNoBitsDecodeTo : Prop :=
  ∀ s : State, s.rstN = true →
    (∀ off, isBufOffset s.nMax off = false →
      exec (.rdBuf off) s = .next { s with response := some ⟨some 0, .slverr⟩ } ∧
      ∀ data, exec (.wrBuf off data) s = .next { s with response := some ⟨none, .slverr⟩ }) ∧
    (∀ size write off data, exec (.refused size write off data) s =
      .next { s with response := some ⟨if write then none else some 0, .slverr⟩ }) ∧
    (∀ opc mbz, exec (.illegal opc mbz) s = exec (.wrCmd (mbz ++ opc)) s)

/-- A BUF word reads back as it was written, and a write leaves every other BUF word alone (20_memory.md R31, R32). -/
def Obligations.BufWordsReadBack : Prop :=
  ∀ (s t : State) (off off' : Offset) (d : Word), s.rstN = true → s.busy = false →
    isBufOffset s.nMax off = true → isBufOffset s.nMax off' = true → exec (.wrBuf off d) s = .next t →
    exec (.rdBuf off) t = .next { t with response := some ⟨some d, .okay⟩ } ∧
    (off' ≠ off → ∀ v, exec (.rdBuf off') s = .next { s with response := some ⟨some v, .okay⟩ } →
      exec (.rdBuf off') t = .next { t with response := some ⟨some v, .okay⟩ })

/-- 30_encoding.md R50, 20_memory.md R32: the writes of LOADB put the byte string into BUF in order, and touch nothing else. -/
def Obligations.LoadbPutsBytesInOrder : Prop :=
  ∀ (s : State) (k : Nat) (bytes : List Byte), s.rstN = true → s.busy = false → s.nMax ≤ 479 →
    k % 4 = 0 → bytes.length % 4 = 0 → k + bytes.length ≤ bufSize s.nMax →
    s.agenda = ((Pseudo.loadB k bytes).expand.filterMap ScriptLine.transaction).map Event.host →
    ∃ t, Host.Core.run Sys2Proof.core (bytes.length / 4) s = .next t ∧
      State.agenda t = [] ∧
      (∀ m (h : m < bytes.length), State.bufByte t (k + m) = bytes[m]) ∧
      (∀ a, ¬ (k ≤ a ∧ a < k + bytes.length) → State.bufByte t a = s.bufByte a) ∧
      t = { s with buf := State.buf t, response := State.response t, agenda := [] }

/-! ## Commands -/

/-- 41_commands.md R65: NOP changes nothing; while busy it is refused like any other CMD write. -/
def Obligations.NopHasNoEffect : Prop :=
  ∀ s : State, s.rstN = true →
    (s.busy = false → exec .nop s = .next { s with response := some ⟨none, .okay⟩ }) ∧
    (s.busy = true → exec .nop s = .next { s with response := some ⟨none, .slverr⟩ })

/-- 41_commands.md R67: every word other than 0, 1 and 2 completes at once with ERR = 3, answered OKAY, and touches nothing
else; so does the row ILLEGAL with well-formed operands. -/
def Obligations.IllegalWordsCompleteWithError : Prop :=
  ∀ s : State, s.rstN = true → s.busy = false →
    (∀ w : Word, w ≠ 0 → w ≠ 1 → w ≠ 2 → exec (.wrCmd w) s =
      .next { s with done := true, err := .illegalCommand, outlen := 0, response := some ⟨none, .okay⟩ }) ∧
    (∀ (opc : BitVec 4) (mbz : BitVec 28), (Instr.illegal opc mbz).wf s.nMax = true → exec (.illegal opc mbz) s =
      .next { s with done := true, err := .illegalCommand, outlen := 0, response := some ⟨none, .okay⟩ })

/-- 41_commands.md R66: DONE, ERR and OUTLEN of one command never carry over into the next: whatever they were, a command
word other than NOP leaves the same state. -/
def Obligations.AcceptanceForgetsTheLastResult : Prop :=
  ∀ (s : State) (w : Word) (done : Bool) (err : ErrCode) (outlen : Word),
    s.rstN = true → s.busy = false → w ≠ 0 →
    ∃ t, exec (.wrCmd w) s = .next t ∧
      exec (.wrCmd w) { s with done := done, err := err, outlen := outlen } = .next t ∧
      (t.busy = true → t.done = false ∧ t.err = .none ∧ t.outlen = 0 ∧ t.irq = false)

/-- 41_commands.md R68: WRAP with a length below 16, not a multiple of 8, or above 8*N_MAX completes at once with
INVALID_LENGTH; BUF and everything else stay. -/
def Obligations.WrapChecksItsLength : Prop :=
  ∀ s : State, s.rstN = true → s.busy = false →
    (¬ (16 ≤ s.len.toNat ∧ s.len.toNat % 8 = 0 ∧ s.len.toNat ≤ 8 * s.nMax) → exec .wrap s =
      .next { s with done := true, err := .invalidLength, outlen := 0, response := some ⟨none, .okay⟩ }) ∧
    (16 ≤ s.len.toNat ∧ s.len.toNat % 8 = 0 ∧ s.len.toNat ≤ 8 * s.nMax →
      ∃ t, exec .wrap s = .next t ∧ t.busy = true)

/-- 41_commands.md R69: UNWRAP with a length below 24, not a multiple of 8, or above 8*(N_MAX+1) completes at once with
INVALID_LENGTH; BUF and everything else stay. -/
def Obligations.UnwrapChecksItsLength : Prop :=
  ∀ s : State, s.rstN = true → s.busy = false →
    (¬ (24 ≤ s.len.toNat ∧ s.len.toNat % 8 = 0 ∧ s.len.toNat ≤ 8 * (s.nMax + 1)) → exec .unwrap s =
      .next { s with done := true, err := .invalidLength, outlen := 0, response := some ⟨none, .okay⟩ }) ∧
    (24 ≤ s.len.toNat ∧ s.len.toNat % 8 = 0 ∧ s.len.toNat ≤ 8 * (s.nMax + 1) →
      ∃ t, exec .unwrap s = .next t ∧ t.busy = true)

/-- 41_commands.md R70: the acceptance of a legal WRAP: the sequencer's start, A set to the IV, no other byte of BUF and no
other register changed. -/
def Obligations.LegalWrapStarts : Prop :=
  ∀ s : State, s.rstN = true → s.busy = false → s.nMax ≤ 479 →
    16 ≤ s.len.toNat → s.len.toNat % 8 = 0 → s.len.toNat ≤ 8 * s.nMax →
    ∃ t, exec .wrap s = .next t ∧
      t.n.toNat = s.len.toNat / 8 ∧
      (∀ k, k < 8 → t.bufByte k = 0xA6) ∧ (∀ k, 8 ≤ k → t.bufByte k = s.bufByte k) ∧
      t = { s with
        op := .wrap, lenLatched := s.len, n := t.n, t := 0, j := 0, i := 1, phase := .round,
        done := false, err := .none, outlen := 0, buf := t.buf, response := some ⟨none, .okay⟩ }

/-- 41_commands.md R71: the acceptance of a legal UNWRAP: the sequencer's start; BUF and every other register unchanged. -/
def Obligations.LegalUnwrapStarts : Prop :=
  ∀ s : State, s.rstN = true → s.busy = false → s.nMax ≤ 479 →
    24 ≤ s.len.toNat → s.len.toNat % 8 = 0 → s.len.toNat ≤ 8 * (s.nMax + 1) →
    ∃ t, exec .unwrap s = .next t ∧
      t.n.toNat = s.len.toNat / 8 - 1 ∧ t.t.toNat = 6 * t.n.toNat ∧
      t = { s with
        op := .unwrap, lenLatched := s.len, n := t.n, t := t.t, j := 5, i := t.n, phase := .round,
        done := false, err := .none, outlen := 0, response := some ⟨none, .okay⟩ }

/-! ## Engine steps -/

/-- 42_cipher_routing.md R77: the counter encoder byte by byte, that it is its own inverse, and the rule's example. -/
def Obligations.CounterIsEncodedBigEndian : Prop :=
  ∀ (x0 x1 x2 x3 x4 x5 x6 x7 : Byte) (x : Half) (t : BitVec 32),
    ctr (halfOfBytes x0 x1 x2 x3 x4 x5 x6 x7) t =
      halfOfBytes x0 x1 x2 x3 (x4 ^^^ t.extractLsb' 24 8) (x5 ^^^ t.extractLsb' 16 8) (x6 ^^^ t.extractLsb' 8 8)
        (x7 ^^^ t.extractLsb' 0 8) ∧
    ctr (ctr x t) t = x ∧
    ctr 0xA6A6A6A6A6A6A6A6 1 = 0xA6A6A6A6A6A6A6A7

/-- 43_wrap.md R82: WrapRound. The engine's turn sends A ‖ R[i] for encryption. In every state in which a request is
outstanding, whatever the host did since it was sent, on the answer b: t is incremented, A takes the first half of b
with the new t encoded, R[i] the last half; no other byte of BUF and no register of the host changes, and BUSY stays 1.
CIPHER's own answer to that request is its Encrypt of that block. The model's choices: request and answer are two moves
(42_cipher_routing.md R74, log 6), the bus answer of an earlier step falls (log 8), and the latches keep their blocks
after the answer (log 19). -/
def Obligations.WrapRoundFollowsItsRule : Prop :=
  ∀ (s : State) (rest : List Event),
    s.phase = .round → s.op = .wrap → 1 ≤ s.i.toNat → s.i.toNat ≤ s.n.toNat → s.n.toNat ≤ s.nMax →
    (s.creq = false → s.EngineMovesNext rest → step s = .next
      { s with creq := true, cdir := .encrypt, cin := s.regA ++ s.regR s.i.toNat, agenda := rest, response := none }) ∧
    (s.creq = true → s.cdir = .encrypt → s.cin = s.regA ++ s.regR s.i.toNat → s.agenda = .cack :: rest →
      step s = step { s with agenda := .cackWith (Config.cipher.encrypt (s.regA ++ s.regR s.i.toNat)) :: rest }) ∧
    (∀ b, s.creq = true → s.agenda = .cackWith b :: rest → ∃ t, step s = .next t ∧
      t.busy = true ∧
      t.t = s.t + 1 ∧ t.regA = ctr (msb8 b) (s.t + 1) ∧ t.regR s.i.toNat = lsb8 b ∧
      (∀ k, 8 ≤ k → ¬ (8 * s.i.toNat ≤ k ∧ k < 8 * s.i.toNat + 8) → t.bufByte k = s.bufByte k) ∧
      t = { s with
        buf := t.buf, t := t.t, i := t.i, j := t.j, phase := t.phase, creq := false, cout := b, agenda := rest,
        response := none })

/-- 44_unwrap.md R89: UnwrapRound. The engine's turn sends ctr(A, t) ‖ R[i] for decryption. In every state in which a
request is outstanding, whatever the host did since it was sent, on the answer b: A and R[i] take its halves and t is
decremented; no other byte of BUF and no register of the host changes, and BUSY stays 1. CIPHER's own answer to that
request is its Decrypt of that block. The model's choices: request and answer are two moves (42_cipher_routing.md R74,
log 6), the bus answer of an earlier step falls (log 8), and the latches keep their blocks after the answer (log 19). -/
def Obligations.UnwrapRoundFollowsItsRule : Prop :=
  ∀ (s : State) (rest : List Event),
    s.phase = .round → s.op = .unwrap → 1 ≤ s.i.toNat → s.i.toNat ≤ s.n.toNat → s.n.toNat ≤ s.nMax →
    (s.creq = false → s.EngineMovesNext rest → step s = .next
      { s with creq := true, cdir := .decrypt, cin := ctr s.regA s.t ++ s.regR s.i.toNat, agenda := rest, response := none }) ∧
    (s.creq = true → s.cdir = .decrypt → s.cin = ctr s.regA s.t ++ s.regR s.i.toNat → s.agenda = .cack :: rest →
      step s = step { s with agenda := .cackWith (Config.cipher.decrypt (ctr s.regA s.t ++ s.regR s.i.toNat)) :: rest }) ∧
    (∀ b, s.creq = true → s.agenda = .cackWith b :: rest → ∃ t, step s = .next t ∧
      t.busy = true ∧
      t.t = s.t - 1 ∧ t.regA = msb8 b ∧ t.regR s.i.toNat = lsb8 b ∧
      (∀ k, 8 ≤ k → ¬ (8 * s.i.toNat ≤ k ∧ k < 8 * s.i.toNat + 8) → t.bufByte k = s.bufByte k) ∧
      t = { s with
        buf := t.buf, t := t.t, i := t.i, j := t.j, phase := t.phase, creq := false, cout := b, agenda := rest,
        response := none })

/-- 43_wrap.md R83: the order of WRAP's rounds, and that the round at (j, i) encodes t = n*j + i. -/
def Obligations.WrapRoundsRunInOrder : Prop :=
  ∀ (s : State) (b : Block) (rest : List Event),
    s.Inv → s.op = .wrap → s.creq = true → s.agenda = .cackWith b :: rest →
    ∃ t, step s = .next t ∧ t.t.toNat = s.n.toNat * s.j.toNat + s.i.toNat ∧
      (s.i.toNat < s.n.toNat → t.i.toNat = s.i.toNat + 1 ∧ t.j = s.j ∧ t.phase = .round) ∧
      (s.i.toNat = s.n.toNat → t.i.toNat = 1 ∧ t.j.toNat = s.j.toNat + 1 ∧
        t.phase = if s.j.toNat = 5 then .final else .round)

/-- 44_unwrap.md R90: the order of UNWRAP's rounds, both descending, and that the round at (j, i) encodes t = n*j + i. After the
last round j is −1, which the 3-bit register holds as 7 (10_state.md R18; DEDUCED, log 17). -/
def Obligations.UnwrapRoundsRunInOrder : Prop :=
  ∀ (s : State) (b : Block) (rest : List Event),
    s.Inv → s.op = .unwrap → s.creq = true → s.agenda = .cackWith b :: rest →
    s.t.toNat = s.n.toNat * s.j.toNat + s.i.toNat ∧
    ∃ t, step s = .next t ∧ t.t.toNat + 1 = s.t.toNat ∧
      (1 < s.i.toNat → t.i.toNat + 1 = s.i.toNat ∧ t.j = s.j ∧ t.phase = .round) ∧
      (s.i.toNat = 1 → t.i = s.n ∧
        if s.j.toNat = 0 then t.phase = .final ∧ t.j = 7 else t.phase = .round ∧ t.j.toNat + 1 = s.j.toNat)

/-- 43_wrap.md R85: WrapFinal completes with OUTLEN = L + 8 and writes no byte of BUF. The model's choices: no
bus answer stands after an engine's turn (log 8), and the idle engine keeps `op` (log 21), `cdir`, `cin` and `cout` (log 19). -/
def Obligations.WrapFinalCompletes : Prop :=
  ∀ (s : State) (rest : List Event), s.phase = .final → s.op = .wrap → s.n.toNat ≤ s.nMax → s.EngineMovesNext rest →
    step s = .next { s with
      phase := .idle, done := true, err := .none, outlen := s.lenLatched + 8, agenda := rest, response := none }

/-- 44_unwrap.md R91, R92, R93: UnwrapFinal compares all of A with the IV once: success with OUTLEN = L − 8 and BUF as it is,
or INTEGRITY_FAILURE with BUF[0..8(n+1)) zeroed in the same step and no byte above touched. The model's choices: no
bus answer stands after an engine's turn (log 8), and the idle engine keeps `op` (log 21), `cdir`, `cin` and `cout` (log 19). -/
def Obligations.UnwrapFinalComparesAndZeroes : Prop :=
  ∀ (s : State) (rest : List Event), s.phase = .final → s.op = .unwrap → s.n.toNat ≤ s.nMax →
    s.EngineMovesNext rest →
    ((∀ k, k < 8 → s.bufByte k = 0xA6) → step s = .next { s with
      phase := .idle, done := true, err := .none, outlen := s.lenLatched - 8, agenda := rest, response := none }) ∧
    ((∃ k, k < 8 ∧ s.bufByte k ≠ 0xA6) → ∃ t, step s = .next t ∧
      (∀ k, k < 8 * (s.n.toNat + 1) → t.bufByte k = 0) ∧
      (∀ k, 8 * (s.n.toNat + 1) ≤ k → t.bufByte k = s.bufByte k) ∧
      t = { s with phase := .idle, done := true, err := .integrityFailure, outlen := 0, buf := t.buf, agenda := rest,
                   response := none })

/-- 70_reset_and_hazards.md R114, 93_implementation_defined.md U14: a cack without a request changes nothing. That the bus answer
of an earlier step falls in the cack's step is the model's choice (log 8). -/
def Obligations.AckWithoutRequestIsIgnored : Prop :=
  ∀ (s : State) (e : Event) (rest : List Event), s.creq = false → e = .cack ∨ (∃ b, e = .cackWith b) →
    s.agenda = e :: rest → step s = .next { s with agenda := rest, response := none }

/-- 42_cipher_routing.md R75: while the cipher does not answer, nothing the host or the engine does ends the command: however
long the run, BUSY stays 1, the request stays as it was sent, and BUF and the sequencer do not change. -/
def Obligations.SilentCipherHangsTheEngine : Prop :=
  ∀ (s : State) (k : Nat), s.rstN = true → s.phase = .round → s.creq = true →
    (∀ e ∈ s.agenda, e = .engine ∨ ∃ h, e = .host h) →
    ∃ t, Host.Core.run Sys2Proof.core k s = .next t ∧ State.busy t = true ∧
      t = { s with done := State.done t, doneIE := State.doneIE t, response := State.response t, agenda := State.agenda t }

/-! ## Interrupt and status over the whole machine -/

/-- 60_exceptions.md R99, R100: irq rises with every completion while DONE_IE is set, and falls by a W1C of DONE, by clearing
DONE_IE, by the start of a command, and by reset. -/
def Obligations.InterruptFollowsDoneAndEnable : Prop :=
  ∀ (s t : State),
    (∀ d, exec (.wrStatus d) s = .next t → d.getLsbD 1 = true → t.irq = false) ∧
    (∀ d, exec (.wrIrqEn d) s = .next t → d.getLsbD 0 = false → t.irq = false ∧ t.done = s.done) ∧
    (∀ w, exec (.wrCmd w) s = .next t → s.busy = false → t.busy = true → t.irq = false) ∧
    (exec .nop s = .next t → t.irq = s.irq) ∧
    (∀ rest, s.EngineMovesNext rest → s.phase = .final → step s = .next t → t.irq = s.doneIE) ∧
    (∀ rest, s.agenda = .rst false :: rest → step s = .next t → t.irq = false)

/-- 60_exceptions.md R96, 10_state.md R16: DONE is raised by completions alone: by the final step of a running command, or by
a command word that fails at acceptance. -/
def Obligations.DoneRisesOnlyByCompletion : Prop :=
  ∀ s t : State, step s = .next t → s.done = false → t.done = true →
    t.busy = false ∧
    (s.phase = .final ∨
      (s.busy = false ∧ ∃ h rest, s.agenda = .host h :: rest ∧ (t.err = .invalidLength ∨ t.err = .illegalCommand)))

/-- 70_reset_and_hazards.md R111: while busy no transaction disturbs the command; writes of CMD, LEN and BUF and reads of BUF
answer SLVERR. -/
def Obligations.BusyEngineIsNotDisturbed : Prop :=
  ∀ (i : Instr) (s : State), s.rstN = true → s.busy = true →
    ∃ t, exec i s = .next t ∧
      t = { s with done := t.done, doneIE := t.doneIE, response := t.response } ∧ (t.done = true → s.done = true) ∧
      ((∃ w, i = .wrCmd w) ∨ (∃ w, i = .wrLen w) ∨ (∃ o w, i = .wrBuf o w) ∨ i = .nop ∨ i = .wrap ∨ i = .unwrap ∨
        (∃ o m, i = .illegal o m) → t = { s with response := some ⟨none, .slverr⟩ }) ∧
      ((∃ o, i = .rdBuf o) → t = { s with response := some ⟨some 0, .slverr⟩ })

/-- 40_bus_access.md R58: LEN is changed by a write of LEN or by reset, and by nothing else: no command changes it. -/
def Obligations.LenIsChangedByWritesAlone : Prop :=
  ∀ s t : State, step s = .next t → t.len ≠ s.len →
    (∃ h rest d, s.agenda = .host h :: rest ∧ decode s.nMax h = .wrLen d ∧ s.busy = false ∧ t.len = d) ∨
    (∃ level rest, s.agenda = .rst level :: rest)

/-- 70_reset_and_hazards.md R116: a byte of BUF is changed by the host's write of its word, by the start of a WRAP (in A), by
a running command (below 8(n+1)), or by reset, and by nothing else. -/
def Obligations.BufIsChangedByFewSteps : Prop :=
  ∀ (s t : State) (k : Nat), step s = .next t → t.bufByte k ≠ s.bufByte k →
    (∃ h rest off d, s.agenda = .host h :: rest ∧ decode s.nMax h = .wrBuf off d ∧ s.busy = false ∧
      off.toNat - 0x100 ≤ k ∧ k < off.toNat - 0x100 + 4) ∨
    (∃ h rest, s.agenda = .host h :: rest ∧ s.busy = false ∧ t.busy = true ∧ t.op = .wrap ∧ k < 8) ∨
    (s.busy = true ∧ k < 8 * (s.n.toNat + 1) ∧ ∀ h rest, s.agenda ≠ .host h :: rest) ∨
    (∃ level rest, s.agenda = .rst level :: rest)

/-! ## Whole commands -/

/-- 43_wrap.md R86: stale A never matters: two engines that differ only in A hold the same BUF and the same registers after
WRAP is accepted. -/
def Obligations.WrapIgnoresStaleA : Prop :=
  ∀ (s : State) (a : Half), s.rstN = true → s.busy = false → wrapLenOK s.nMax s.len = true →
    ∃ t u, exec .wrap s = .next t ∧ exec .wrap (s.storeHalf 0 a) = .next u ∧
      (∀ k, u.bufByte k = t.bufByte k) ∧ u = { t with buf := u.buf }

/-- 43_wrap.md R84, 42_cipher_routing.md R80: an accepted WRAP takes one answer for each of its 6n rounds and one final step:
after each earlier move it is still busy, and after the last it is done, whatever the cipher answered. A round is two moves,
request and answer, by the model's choice (log 6); no host move comes between. -/
def Obligations.WrapTakesSixNRounds : Prop :=
  ∀ (s : State) (answers : List Block) (rest : List Event),
    s.Inv → s.op = .wrap → s.phase = .round → s.creq = false → s.j = 0 → s.i = 1 →
    answers.length = 6 * s.n.toNat → s.agenda = commandMoves answers ++ rest →
    (∀ k, k ≤ 12 * s.n.toNat → ∃ u, Host.Core.run Sys2Proof.core k s = .next u ∧ State.busy u = true) ∧
    ∃ t, Host.Core.run Sys2Proof.core (12 * s.n.toNat + 1) s = .next t ∧
      State.busy t = false ∧ State.done t = true ∧ State.err t = .none ∧ State.outlen t = s.lenLatched + 8 ∧
      State.len t = s.len ∧ State.agenda t = rest ∧ SameFrom (8 * (s.n.toNat + 1)) s t

/-- 44_unwrap.md R88, R94: an accepted UNWRAP takes one answer for each of its 6n rounds and one final step, and ends in
success or in integrity failure, whatever the cipher answered. A round is two moves, request and answer, by the model's choice
(log 6); no host move comes between. -/
def Obligations.UnwrapTakesSixNRounds : Prop :=
  ∀ (s : State) (answers : List Block) (rest : List Event),
    s.Inv → s.op = .unwrap → s.phase = .round → s.creq = false → s.j = 5 → s.i = s.n →
    answers.length = 6 * s.n.toNat → s.agenda = commandMoves answers ++ rest →
    (∀ k, k ≤ 12 * s.n.toNat → ∃ u, Host.Core.run Sys2Proof.core k s = .next u ∧ State.busy u = true) ∧
    ∃ t, Host.Core.run Sys2Proof.core (12 * s.n.toNat + 1) s = .next t ∧
      State.busy t = false ∧ State.done t = true ∧ State.len t = s.len ∧ State.agenda t = rest ∧
      SameFrom (8 * (s.n.toNat + 1)) s t ∧
      ((State.err t = .none ∧ State.outlen t = s.lenLatched - 8 ∧ State.regA t = 0xA6A6A6A6A6A6A6A6) ∨
       (State.err t = .integrityFailure ∧ State.outlen t = 0 ∧ ∀ k, k < 8 * (s.n.toNat + 1) → State.bufByte t k = 0))

/-- 43_wrap.md R81: a WRAP served by one cipher computes the source's algorithm: BUF holds C[0] ‖ C[1..n], OUTLEN = L + 8,
and nothing above is touched. -/
def Obligations.WrapComputesRfc3394 : Prop :=
  ∀ (c : Cipher) (s : State), s.Inv → s.rstN = true → s.busy = false → wrapLenOK s.nMax s.len = true →
    let n := s.len.toNat / 8
    let out := rfcWrap c.encrypt (s.blocks 1 n)
    ∃ u t, exec .wrap s = .next u ∧ serve c (12 * n + 1) u = .next t ∧
      t.busy = false ∧ t.done = true ∧ t.err = .none ∧ t.outlen.toNat = s.len.toNat + 8 ∧ t.len = s.len ∧
      t.blocks 0 (n + 1) = out.1 :: out.2 ∧ SameFrom (8 * (n + 1)) s t

/-- 44_unwrap.md R88, R91 to R93: an UNWRAP served by one cipher computes the source's algorithm, compares, and returns the
plaintext or zeroes. -/
def Obligations.UnwrapComputesRfc3394 : Prop :=
  ∀ (c : Cipher) (s : State), s.Inv → s.rstN = true → s.busy = false → unwrapLenOK s.nMax s.len = true →
    let n := s.len.toNat / 8 - 1
    let out := rfcUnwrap c.decrypt s.regA (s.blocks 1 n)
    ∃ u t, exec .unwrap s = .next u ∧ serve c (12 * n + 1) u = .next t ∧
      t.busy = false ∧ t.done = true ∧ t.len = s.len ∧ SameFrom (8 * (n + 1)) s t ∧
      if out.1 = 0xA6A6A6A6A6A6A6A6 then
        t.err = .none ∧ t.outlen.toNat + 8 = s.len.toNat ∧ t.blocks 0 (n + 1) = out.1 :: out.2
      else t.err = .integrityFailure ∧ t.outlen = 0 ∧ ∀ k, k < 8 * (n + 1) → t.bufByte k = 0

/-- 44_unwrap.md R94 item 1: under a cipher whose Decrypt undoes its Encrypt, an UNWRAP of what a WRAP left in BUF succeeds
and gives the plaintext back. -/
def Obligations.UnwrapUndoesWrap : Prop :=
  ∀ (c : Cipher) (s : State), (∀ x, c.decrypt (c.encrypt x) = x) →
    s.Inv → s.rstN = true → s.busy = false → wrapLenOK s.nMax s.len = true →
    let n := s.len.toNat / 8
    ∃ u v w x y, exec .wrap s = .next u ∧ serve c (12 * n + 1) u = .next v ∧
      exec (.wrLen (s.len + 8)) v = .next w ∧ exec .unwrap w = .next x ∧ serve c (12 * n + 1) x = .next y ∧
      y.busy = false ∧ y.done = true ∧ y.err = .none ∧ y.outlen = s.len ∧ y.blocks 1 n = s.blocks 1 n

/-- 10_state.md R26, 40_bus_access.md R61: while rounds run (and through the end of a WRAP), a step taken by two engines that
differ only in key data and cipher blocks leaves them differing only so: the host and the timing see nothing of the data. -/
def Obligations.RunningCommandRevealsNoKeyData : Prop :=
  ∀ s₁ s₂ t₁ : State, SameButSecrets s₁ s₂ → s₁.phase = .round ∨ (s₁.phase = .final ∧ s₁.op = .wrap) →
    step s₁ = .next t₁ → ∃ t₂, step s₂ = .next t₂ ∧ SameButSecrets t₁ t₂
end

