-- ==== Sys2Proof/Laws/Decode.lean ====
section
/-! SUPPORT. The fields of a descriptor (30_encoding.md R47) and the address map (10_state.md R13), once each. -/

namespace Sys2Proof

open Sys2Proof.Machine

section
variable (size : BitVec 2) (write : Bool) (off : Offset) (data : Word)

@[simp] theorem descSize_descriptor : descSize (descriptor size write off data) = size := by
  apply BitVec.eq_of_getLsbD_eq
  intro i hi
  simp only [descSize, descriptor, BitVec.getLsbD_extractLsb', BitVec.getLsbD_append]
  rw [if_neg (by omega), if_neg (by omega), if_neg (by omega), decide_eq_true hi, Bool.true_and]
  congr 1; omega

@[simp] theorem descWrite_descriptor : descWrite (descriptor size write off data) = write := by
  simp only [descWrite, descriptor, BitVec.getLsbD_append]
  cases write <;> rfl

@[simp] theorem descOff_descriptor : descOff (descriptor size write off data) = off := by
  apply BitVec.eq_of_getLsbD_eq
  intro i hi
  simp only [descOff, descriptor, BitVec.getLsbD_extractLsb', BitVec.getLsbD_append]
  rw [if_neg (by omega), if_pos (by omega), decide_eq_true hi, Bool.true_and]
  congr 1; omega

@[simp] theorem descData_descriptor : descData (descriptor size write off data) = data := by
  apply BitVec.eq_of_getLsbD_eq
  intro i hi
  simp only [descData, descriptor, BitVec.getLsbD_extractLsb', BitVec.getLsbD_append]
  rw [if_pos (by omega), decide_eq_true hi, Bool.true_and]
  congr 1; omega

end

@[simp] theorem regAt_regOffset (r : Reg) : regAt (regOffset r) = some r := by cases r <;> decide

@[simp] theorem aligned_regOffset (r : Reg) : aligned (regOffset r) = true := by cases r <;> decide

/-- The register at an offset starts there. -/
theorem regAt_eq_some {off : Offset} {r : Reg} (h : regAt off = some r) : off = regOffset r := by
  unfold regAt at h
  repeat' split at h
  all_goals first | (cases h; assumption) | cases h

/-- No BUF offset is a register's (10_state.md R13). -/
theorem regAt_of_isBufOffset {nMax : Nat} {off : Offset} (h : isBufOffset nMax off = true) : regAt off = none := by
  cases hr : regAt off with
  | none => rfl
  | some r =>
    rw [regAt_eq_some hr] at h
    cases r <;> simp [isBufOffset, regOffset, bufBase] at h

/-- A BUF offset is aligned and lies in BUF's range. -/
theorem isBufOffset_iff (nMax : Nat) (off : Offset) : isBufOffset nMax off = true ↔
    aligned off = true ∧ bufBase ≤ off.toNat ∧ off.toNat + 4 ≤ bufBase + bufSize nMax := by
  simp [isBufOffset, and_assoc]

end Sys2Proof
end

