-- ==== Sys2Proof/Laws/Memory.lean ====
section
/-! SUPPORT. Laws of BUF's cells: a read after a write, every other place unchanged, and the canonical form kept. -/

namespace Sys2Proof.Machine

theorem Memory.find_set (m : List Host.Cell) (a c : Nat) (v : Byte) :
    Memory.find (Memory.set m a v) c = if c = a then some v else Memory.find m c := by
  induction m with
  | nil => simp [Memory.set, Memory.find]
  | cons x rest ih =>
    obtain ⟨b, u⟩ := x
    by_cases h1 : a < b
    · simp [Memory.set, h1, Memory.find]
    · by_cases h2 : a = b
      · subst h2
        by_cases hc : c = a <;> simp [Memory.set, Memory.find, hc]
      · by_cases hc : c = b
        · subst hc
          simp [Memory.set, h1, h2, Memory.find, Ne.symm h2]
        · simp [Memory.set, h1, h2, Memory.find, hc, ih]

theorem Memory.find_setBytes (bs : List Byte) : ∀ (m : List Host.Cell) (a c : Nat),
    Memory.find (Memory.setBytes m a bs) c =
      if a ≤ c ∧ c < a + bs.length then bs[c - a]? else Memory.find m c := by
  induction bs with
  | nil => intro m a c; simp [Memory.setBytes]
  | cons v rest ih =>
    intro m a c
    rw [Memory.setBytes, ih, Memory.find_set]
    by_cases hc : c = a
    · subst hc; simp
    · by_cases h : a + 1 ≤ c ∧ c < a + 1 + rest.length
      · rw [if_pos h, if_pos (by rw [List.length_cons]; omega)]
        rw [show c - a = (c - (a + 1)) + 1 by omega, List.getElem?_cons_succ]
      · rw [if_neg h, if_neg hc, if_neg (by rw [List.length_cons]; omega)]

theorem Memory.mem_set {m : List Host.Cell} {a : Nat} {v : Byte} {x : Host.Cell}
    (h : x ∈ Memory.set m a v) : x = (a, v) ∨ x ∈ m := by
  induction m with
  | nil => simpa [Memory.set] using h
  | cons y rest ih =>
    obtain ⟨b, u⟩ := y
    simp only [Memory.set] at h
    split at h
    · simpa using h
    · split at h
      · rcases List.mem_cons.1 h with h | h
        · exact .inl h
        · exact .inr (List.mem_cons_of_mem _ h)
      · rcases List.mem_cons.1 h with h | h
        · exact .inr (by simp [h])
        · rcases ih h with h | h
          · exact .inl h
          · exact .inr (List.mem_cons_of_mem _ h)

/-- A cell of the memory after a write of several bytes is a written one or an old one. -/
theorem Memory.mem_setBytes (bs : List Byte) : ∀ {m : List Host.Cell} {a : Nat} {x : Host.Cell},
    x ∈ Memory.setBytes m a bs → (a ≤ x.1 ∧ x.1 < a + bs.length) ∨ x ∈ m := by
  induction bs with
  | nil => intro m a x h; exact .inr h
  | cons v rest ih =>
    intro m a x h
    rcases ih (m := Memory.set m a v) (a := a + 1) h with h | h
    · exact .inl ⟨by omega, by simp only [List.length_cons]; omega⟩
    · rcases Memory.mem_set h with h | h
      · subst h; exact .inl ⟨le_refl _, by simp⟩
      · exact .inr h

/-- A write of one byte keeps the canonical form. -/
theorem Memory.wf_set {m : List Host.Cell} (a : Nat) (v : Byte) (h : Memory.wf m) :
    Memory.wf (Memory.set m a v) := by
  induction m with
  | nil => simp [Memory.set, Memory.wf]
  | cons y rest ih =>
    obtain ⟨b, u⟩ := y
    simp only [Memory.wf, List.map_cons, List.pairwise_cons, List.mem_map] at h
    obtain ⟨hb, hr⟩ := h
    simp only [Memory.set]
    split
    · rename_i hab
      refine List.pairwise_cons.2 ⟨?_, List.pairwise_cons.2 ⟨?_, hr⟩⟩
      · intro c hc
        rcases List.mem_cons.1 hc with hc | hc
        · simpa [hc] using hab
        · obtain ⟨x, hx, rfl⟩ := List.mem_map.1 hc
          exact lt_trans hab (hb _ ⟨x, hx, rfl⟩)
      · intro c hc
        exact hb c (List.mem_map.1 hc)
    · split
      · rename_i hab
        subst hab
        exact List.pairwise_cons.2 ⟨fun c hc => hb c (List.mem_map.1 hc), hr⟩
      · rename_i h1 h2
        refine List.pairwise_cons.2 ⟨?_, ih hr⟩
        intro c hc
        obtain ⟨x, hx, rfl⟩ := List.mem_map.1 hc
        rcases Memory.mem_set hx with rfl | hx
        · show b < a; omega
        · exact hb _ ⟨x, hx, rfl⟩

/-- A write of several bytes keeps the canonical form. -/
theorem Memory.wf_setBytes (bs : List Byte) : ∀ {m : List Host.Cell} (a : Nat), Memory.wf m →
    Memory.wf (Memory.setBytes m a bs) := by
  induction bs with
  | nil => intro m a h; exact h
  | cons v rest ih => intro m a h; exact ih (a + 1) (Memory.wf_set a v h)

/-- The machine after reset has the canonical form. -/
theorem State.reset_memory_wf : Memory.wf State.reset.buf := List.Pairwise.nil

/-- The canonical form makes equal memories equal data: lists in it that answer every address alike are the same list. -/
theorem Memory.wf_ext {m : List Host.Cell} : ∀ {m' : List Host.Cell}, Memory.wf m → Memory.wf m' →
    (∀ a, Memory.find m a = Memory.find m' a) → m = m' := by
  have find_none : ∀ (l : List Host.Cell) (a : Nat), (∀ x ∈ l, a < x.1) → Memory.find l a = none := by
    intro l a h
    induction l with
    | nil => rfl
    | cons x rest ih =>
      obtain ⟨b, v⟩ := x
      have hb : a < b := h (b, v) (by simp)
      simp [Memory.find, Nat.ne_of_lt hb, ih fun y hy => h y (by simp [hy])]
  induction m with
  | nil =>
    intro m' _ _ h
    cases m' with
    | nil => rfl
    | cons y _ => obtain ⟨b, v⟩ := y; simpa [Memory.find] using h b
  | cons x rest ih =>
    intro m' hm hm' h
    obtain ⟨a, u⟩ := x
    cases m' with
    | nil => simpa [Memory.find] using h a
    | cons y rest' =>
      obtain ⟨b, v⟩ := y
      simp only [Memory.wf, List.map_cons, List.pairwise_cons, List.mem_map] at hm hm'
      have above : ∀ x ∈ rest, a < x.1 := fun x hx => hm.1 _ ⟨x, hx, rfl⟩
      have above' : ∀ x ∈ rest', b < x.1 := fun x hx => hm'.1 _ ⟨x, hx, rfl⟩
      have hab : a = b := by
        by_contra hne
        rcases Nat.lt_or_gt_of_ne hne with hlt | hlt
        · have := h a
          simp [Memory.find, hne, find_none rest' a fun x hx => lt_trans hlt (above' x hx)] at this
        · have := h b
          simp [Memory.find, Ne.symm hne, find_none rest b fun x hx => lt_trans hlt (above x hx)] at this
      subst hab
      have huv : u = v := by simpa [Memory.find] using h a
      subst huv
      congr 1
      refine ih hm.2 hm'.2 fun c => ?_
      by_cases hc : c = a
      · subst hc
        rw [find_none rest c above, find_none rest' c above']
      · simpa [Memory.find, hc] using h c

/-- BUF after a write of consecutive bytes: the written ones are those, every other byte is as before. -/
theorem State.bufByte_storeBytes (s : State) (a k : Nat) (bs : List Byte) :
    (s.storeBytes a bs).bufByte k =
      if h : a ≤ k ∧ k < a + bs.length then bs[k - a]'(by omega) else s.bufByte k := by
  unfold State.bufByte
  rw [show (s.storeBytes a bs).buf = Memory.setBytes s.buf a bs from rfl, Memory.find_setBytes]
  split
  · rename_i h
    rw [List.getElem?_eq_getElem (by omega), Option.getD_some]
  · rfl

/-- A byte outside a write keeps its value. -/
theorem State.bufByte_storeBytes_frame (s : State) {a k : Nat} {bs : List Byte}
    (h : ¬ (a ≤ k ∧ k < a + bs.length)) : (s.storeBytes a bs).bufByte k = s.bufByte k := by
  rw [State.bufByte_storeBytes, dif_neg h]

theorem halfBytes_length (x : Half) : (halfBytes x).length = 8 := rfl

theorem wordBytes_length (d : Word) : (wordBytes d).length = 4 := rfl

/-- A value read back from its own bytes. -/
theorem halfOfBytes_halfBytes (x : Half) :
    halfOfBytes (x.extractLsb' 56 8) (x.extractLsb' 48 8) (x.extractLsb' 40 8) (x.extractLsb' 32 8)
      (x.extractLsb' 24 8) (x.extractLsb' 16 8) (x.extractLsb' 8 8) (x.extractLsb' 0 8) = x := by
  apply BitVec.eq_of_getLsbD_eq
  intro i hi
  simp only [halfOfBytes, BitVec.getLsbD_append, BitVec.getLsbD_extractLsb']
  repeat' split
  all_goals (rw [decide_eq_true (by omega), Bool.true_and]; congr 1; omega)

/-- A bus word read back from its own bytes (20_memory.md R32). -/
theorem le32_wordBytes (d : Word) :
    le32 (d.extractLsb' 0 8) (d.extractLsb' 8 8) (d.extractLsb' 16 8) (d.extractLsb' 24 8) = d := by
  apply BitVec.eq_of_getLsbD_eq
  intro i hi
  simp only [le32, BitVec.getLsbD_append, BitVec.getLsbD_extractLsb']
  repeat' split
  all_goals (rw [decide_eq_true (by omega), Bool.true_and]; congr 1; omega)

/-- A read of eight bytes that were just written. -/
theorem State.half_storeHalf (s : State) (a : Nat) (x : Half) : (s.storeHalf a x).half a = x := by
  simp only [State.half, State.storeHalf, State.bufByte_storeBytes, halfBytes_length]
  simp [halfBytes, halfOfBytes_halfBytes]

/-- Eight bytes apart from a write of eight bytes keep their values. -/
theorem State.half_storeHalf_frame (s : State) {a b : Nat} (x : Half) (h : b + 8 ≤ a ∨ a + 8 ≤ b) :
    (s.storeHalf a x).half b = s.half b := by
  have keep (k : Nat) (hk : b ≤ k ∧ k < b + 8) : (s.storeHalf a x).bufByte k = s.bufByte k :=
    State.bufByte_storeBytes_frame s (by rw [halfBytes_length]; omega)
  simp only [State.half]
  rw [keep, keep, keep, keep, keep, keep, keep, keep] <;> omega

/-- A read of a bus word that was just written (40_bus_access.md R61, R62). -/
theorem State.bufWord_storeWord (s : State) (k : Nat) (d : Word) : (s.storeWord k d).bufWord k = d := by
  simp only [State.bufWord, State.storeWord, State.bufByte_storeBytes, wordBytes_length]
  simp [wordBytes, le32_wordBytes]

end Sys2Proof.Machine
end

