-- ==== Sys2Proof/Laws/State.lean ====
section
/-! SUPPORT. What each named update of State does to each field: one lemma per field per update, true by rfl. -/

namespace Sys2Proof.Machine

section
variable (s : State) (d : Option Word) (r : Resp)

@[simp] theorem State.respond_nMax : (s.respond d r).nMax = s.nMax := rfl
@[simp] theorem State.respond_rstN : (s.respond d r).rstN = s.rstN := rfl
@[simp] theorem State.respond_buf : (s.respond d r).buf = s.buf := rfl
@[simp] theorem State.respond_done : (s.respond d r).done = s.done := rfl
@[simp] theorem State.respond_err : (s.respond d r).err = s.err := rfl
@[simp] theorem State.respond_len : (s.respond d r).len = s.len := rfl
@[simp] theorem State.respond_outlen : (s.respond d r).outlen = s.outlen := rfl
@[simp] theorem State.respond_doneIE : (s.respond d r).doneIE = s.doneIE := rfl
@[simp] theorem State.respond_phase : (s.respond d r).phase = s.phase := rfl
@[simp] theorem State.respond_op : (s.respond d r).op = s.op := rfl
@[simp] theorem State.respond_lenLatched : (s.respond d r).lenLatched = s.lenLatched := rfl
@[simp] theorem State.respond_n : (s.respond d r).n = s.n := rfl
@[simp] theorem State.respond_j : (s.respond d r).j = s.j := rfl
@[simp] theorem State.respond_i : (s.respond d r).i = s.i := rfl
@[simp] theorem State.respond_t : (s.respond d r).t = s.t := rfl
@[simp] theorem State.respond_creq : (s.respond d r).creq = s.creq := rfl
@[simp] theorem State.respond_cdir : (s.respond d r).cdir = s.cdir := rfl
@[simp] theorem State.respond_cin : (s.respond d r).cin = s.cin := rfl
@[simp] theorem State.respond_cout : (s.respond d r).cout = s.cout := rfl
@[simp] theorem State.respond_response : (s.respond d r).response = some ⟨d, r⟩ := rfl
@[simp] theorem State.respond_bufHistory : (s.respond d r).bufHistory = s.bufHistory := rfl
@[simp] theorem State.respond_agenda : (s.respond d r).agenda = s.agenda := rfl
end

section
variable (s : State) (e : ErrCode) (w : Word)

@[simp] theorem State.complete_nMax : (s.complete e w).nMax = s.nMax := rfl
@[simp] theorem State.complete_rstN : (s.complete e w).rstN = s.rstN := rfl
@[simp] theorem State.complete_buf : (s.complete e w).buf = s.buf := rfl
@[simp] theorem State.complete_done : (s.complete e w).done = true := rfl
@[simp] theorem State.complete_err : (s.complete e w).err = e := rfl
@[simp] theorem State.complete_len : (s.complete e w).len = s.len := rfl
@[simp] theorem State.complete_outlen : (s.complete e w).outlen = w := rfl
@[simp] theorem State.complete_doneIE : (s.complete e w).doneIE = s.doneIE := rfl
@[simp] theorem State.complete_phase : (s.complete e w).phase = .idle := rfl
@[simp] theorem State.complete_op : (s.complete e w).op = s.op := rfl
@[simp] theorem State.complete_lenLatched : (s.complete e w).lenLatched = s.lenLatched := rfl
@[simp] theorem State.complete_n : (s.complete e w).n = s.n := rfl
@[simp] theorem State.complete_j : (s.complete e w).j = s.j := rfl
@[simp] theorem State.complete_i : (s.complete e w).i = s.i := rfl
@[simp] theorem State.complete_t : (s.complete e w).t = s.t := rfl
@[simp] theorem State.complete_creq : (s.complete e w).creq = s.creq := rfl
@[simp] theorem State.complete_cdir : (s.complete e w).cdir = s.cdir := rfl
@[simp] theorem State.complete_cin : (s.complete e w).cin = s.cin := rfl
@[simp] theorem State.complete_cout : (s.complete e w).cout = s.cout := rfl
@[simp] theorem State.complete_response : (s.complete e w).response = s.response := rfl
@[simp] theorem State.complete_bufHistory : (s.complete e w).bufHistory = s.bufHistory := rfl
@[simp] theorem State.complete_agenda : (s.complete e w).agenda = s.agenda := rfl
end

section
variable (s : State) 

@[simp] theorem State.clearStatus_nMax : (s.clearStatus).nMax = s.nMax := rfl
@[simp] theorem State.clearStatus_rstN : (s.clearStatus).rstN = s.rstN := rfl
@[simp] theorem State.clearStatus_buf : (s.clearStatus).buf = s.buf := rfl
@[simp] theorem State.clearStatus_done : (s.clearStatus).done = false := rfl
@[simp] theorem State.clearStatus_err : (s.clearStatus).err = .none := rfl
@[simp] theorem State.clearStatus_len : (s.clearStatus).len = s.len := rfl
@[simp] theorem State.clearStatus_outlen : (s.clearStatus).outlen = 0 := rfl
@[simp] theorem State.clearStatus_doneIE : (s.clearStatus).doneIE = s.doneIE := rfl
@[simp] theorem State.clearStatus_phase : (s.clearStatus).phase = s.phase := rfl
@[simp] theorem State.clearStatus_op : (s.clearStatus).op = s.op := rfl
@[simp] theorem State.clearStatus_lenLatched : (s.clearStatus).lenLatched = s.lenLatched := rfl
@[simp] theorem State.clearStatus_n : (s.clearStatus).n = s.n := rfl
@[simp] theorem State.clearStatus_j : (s.clearStatus).j = s.j := rfl
@[simp] theorem State.clearStatus_i : (s.clearStatus).i = s.i := rfl
@[simp] theorem State.clearStatus_t : (s.clearStatus).t = s.t := rfl
@[simp] theorem State.clearStatus_creq : (s.clearStatus).creq = s.creq := rfl
@[simp] theorem State.clearStatus_cdir : (s.clearStatus).cdir = s.cdir := rfl
@[simp] theorem State.clearStatus_cin : (s.clearStatus).cin = s.cin := rfl
@[simp] theorem State.clearStatus_cout : (s.clearStatus).cout = s.cout := rfl
@[simp] theorem State.clearStatus_response : (s.clearStatus).response = s.response := rfl
@[simp] theorem State.clearStatus_bufHistory : (s.clearStatus).bufHistory = s.bufHistory := rfl
@[simp] theorem State.clearStatus_agenda : (s.clearStatus).agenda = s.agenda := rfl
end

section
variable (s : State) (d : Word)

@[simp] theorem State.writeStatus_nMax : (s.writeStatus d).nMax = s.nMax := rfl
@[simp] theorem State.writeStatus_rstN : (s.writeStatus d).rstN = s.rstN := rfl
@[simp] theorem State.writeStatus_buf : (s.writeStatus d).buf = s.buf := rfl
@[simp] theorem State.writeStatus_done : (s.writeStatus d).done = (s.done && !d.getLsbD 1) := rfl
@[simp] theorem State.writeStatus_err : (s.writeStatus d).err = s.err := rfl
@[simp] theorem State.writeStatus_len : (s.writeStatus d).len = s.len := rfl
@[simp] theorem State.writeStatus_outlen : (s.writeStatus d).outlen = s.outlen := rfl
@[simp] theorem State.writeStatus_doneIE : (s.writeStatus d).doneIE = s.doneIE := rfl
@[simp] theorem State.writeStatus_phase : (s.writeStatus d).phase = s.phase := rfl
@[simp] theorem State.writeStatus_op : (s.writeStatus d).op = s.op := rfl
@[simp] theorem State.writeStatus_lenLatched : (s.writeStatus d).lenLatched = s.lenLatched := rfl
@[simp] theorem State.writeStatus_n : (s.writeStatus d).n = s.n := rfl
@[simp] theorem State.writeStatus_j : (s.writeStatus d).j = s.j := rfl
@[simp] theorem State.writeStatus_i : (s.writeStatus d).i = s.i := rfl
@[simp] theorem State.writeStatus_t : (s.writeStatus d).t = s.t := rfl
@[simp] theorem State.writeStatus_creq : (s.writeStatus d).creq = s.creq := rfl
@[simp] theorem State.writeStatus_cdir : (s.writeStatus d).cdir = s.cdir := rfl
@[simp] theorem State.writeStatus_cin : (s.writeStatus d).cin = s.cin := rfl
@[simp] theorem State.writeStatus_cout : (s.writeStatus d).cout = s.cout := rfl
@[simp] theorem State.writeStatus_response : (s.writeStatus d).response = s.response := rfl
@[simp] theorem State.writeStatus_bufHistory : (s.writeStatus d).bufHistory = s.bufHistory := rfl
@[simp] theorem State.writeStatus_agenda : (s.writeStatus d).agenda = s.agenda := rfl
end

section
variable (s : State) (d : Word)

@[simp] theorem State.writeIrqEn_nMax : (s.writeIrqEn d).nMax = s.nMax := rfl
@[simp] theorem State.writeIrqEn_rstN : (s.writeIrqEn d).rstN = s.rstN := rfl
@[simp] theorem State.writeIrqEn_buf : (s.writeIrqEn d).buf = s.buf := rfl
@[simp] theorem State.writeIrqEn_done : (s.writeIrqEn d).done = s.done := rfl
@[simp] theorem State.writeIrqEn_err : (s.writeIrqEn d).err = s.err := rfl
@[simp] theorem State.writeIrqEn_len : (s.writeIrqEn d).len = s.len := rfl
@[simp] theorem State.writeIrqEn_outlen : (s.writeIrqEn d).outlen = s.outlen := rfl
@[simp] theorem State.writeIrqEn_doneIE : (s.writeIrqEn d).doneIE = d.getLsbD 0 := rfl
@[simp] theorem State.writeIrqEn_phase : (s.writeIrqEn d).phase = s.phase := rfl
@[simp] theorem State.writeIrqEn_op : (s.writeIrqEn d).op = s.op := rfl
@[simp] theorem State.writeIrqEn_lenLatched : (s.writeIrqEn d).lenLatched = s.lenLatched := rfl
@[simp] theorem State.writeIrqEn_n : (s.writeIrqEn d).n = s.n := rfl
@[simp] theorem State.writeIrqEn_j : (s.writeIrqEn d).j = s.j := rfl
@[simp] theorem State.writeIrqEn_i : (s.writeIrqEn d).i = s.i := rfl
@[simp] theorem State.writeIrqEn_t : (s.writeIrqEn d).t = s.t := rfl
@[simp] theorem State.writeIrqEn_creq : (s.writeIrqEn d).creq = s.creq := rfl
@[simp] theorem State.writeIrqEn_cdir : (s.writeIrqEn d).cdir = s.cdir := rfl
@[simp] theorem State.writeIrqEn_cin : (s.writeIrqEn d).cin = s.cin := rfl
@[simp] theorem State.writeIrqEn_cout : (s.writeIrqEn d).cout = s.cout := rfl
@[simp] theorem State.writeIrqEn_response : (s.writeIrqEn d).response = s.response := rfl
@[simp] theorem State.writeIrqEn_bufHistory : (s.writeIrqEn d).bufHistory = s.bufHistory := rfl
@[simp] theorem State.writeIrqEn_agenda : (s.writeIrqEn d).agenda = s.agenda := rfl
end

section
variable (s : State) (d : Word)

@[simp] theorem State.writeLen_nMax : (s.writeLen d).nMax = s.nMax := rfl
@[simp] theorem State.writeLen_rstN : (s.writeLen d).rstN = s.rstN := rfl
@[simp] theorem State.writeLen_buf : (s.writeLen d).buf = s.buf := rfl
@[simp] theorem State.writeLen_done : (s.writeLen d).done = s.done := rfl
@[simp] theorem State.writeLen_err : (s.writeLen d).err = s.err := rfl
@[simp] theorem State.writeLen_len : (s.writeLen d).len = d := rfl
@[simp] theorem State.writeLen_outlen : (s.writeLen d).outlen = s.outlen := rfl
@[simp] theorem State.writeLen_doneIE : (s.writeLen d).doneIE = s.doneIE := rfl
@[simp] theorem State.writeLen_phase : (s.writeLen d).phase = s.phase := rfl
@[simp] theorem State.writeLen_op : (s.writeLen d).op = s.op := rfl
@[simp] theorem State.writeLen_lenLatched : (s.writeLen d).lenLatched = s.lenLatched := rfl
@[simp] theorem State.writeLen_n : (s.writeLen d).n = s.n := rfl
@[simp] theorem State.writeLen_j : (s.writeLen d).j = s.j := rfl
@[simp] theorem State.writeLen_i : (s.writeLen d).i = s.i := rfl
@[simp] theorem State.writeLen_t : (s.writeLen d).t = s.t := rfl
@[simp] theorem State.writeLen_creq : (s.writeLen d).creq = s.creq := rfl
@[simp] theorem State.writeLen_cdir : (s.writeLen d).cdir = s.cdir := rfl
@[simp] theorem State.writeLen_cin : (s.writeLen d).cin = s.cin := rfl
@[simp] theorem State.writeLen_cout : (s.writeLen d).cout = s.cout := rfl
@[simp] theorem State.writeLen_response : (s.writeLen d).response = s.response := rfl
@[simp] theorem State.writeLen_bufHistory : (s.writeLen d).bufHistory = s.bufHistory := rfl
@[simp] theorem State.writeLen_agenda : (s.writeLen d).agenda = s.agenda := rfl
end

section
variable (s : State) (a : Nat) (bs : List Byte)

@[simp] theorem State.storeBytes_nMax : (s.storeBytes a bs).nMax = s.nMax := rfl
@[simp] theorem State.storeBytes_rstN : (s.storeBytes a bs).rstN = s.rstN := rfl
@[simp] theorem State.storeBytes_buf : (s.storeBytes a bs).buf = Memory.setBytes s.buf a bs := rfl
@[simp] theorem State.storeBytes_done : (s.storeBytes a bs).done = s.done := rfl
@[simp] theorem State.storeBytes_err : (s.storeBytes a bs).err = s.err := rfl
@[simp] theorem State.storeBytes_len : (s.storeBytes a bs).len = s.len := rfl
@[simp] theorem State.storeBytes_outlen : (s.storeBytes a bs).outlen = s.outlen := rfl
@[simp] theorem State.storeBytes_doneIE : (s.storeBytes a bs).doneIE = s.doneIE := rfl
@[simp] theorem State.storeBytes_phase : (s.storeBytes a bs).phase = s.phase := rfl
@[simp] theorem State.storeBytes_op : (s.storeBytes a bs).op = s.op := rfl
@[simp] theorem State.storeBytes_lenLatched : (s.storeBytes a bs).lenLatched = s.lenLatched := rfl
@[simp] theorem State.storeBytes_n : (s.storeBytes a bs).n = s.n := rfl
@[simp] theorem State.storeBytes_j : (s.storeBytes a bs).j = s.j := rfl
@[simp] theorem State.storeBytes_i : (s.storeBytes a bs).i = s.i := rfl
@[simp] theorem State.storeBytes_t : (s.storeBytes a bs).t = s.t := rfl
@[simp] theorem State.storeBytes_creq : (s.storeBytes a bs).creq = s.creq := rfl
@[simp] theorem State.storeBytes_cdir : (s.storeBytes a bs).cdir = s.cdir := rfl
@[simp] theorem State.storeBytes_cin : (s.storeBytes a bs).cin = s.cin := rfl
@[simp] theorem State.storeBytes_cout : (s.storeBytes a bs).cout = s.cout := rfl
@[simp] theorem State.storeBytes_response : (s.storeBytes a bs).response = s.response := rfl
@[simp] theorem State.storeBytes_bufHistory : (s.storeBytes a bs).bufHistory = s.bufHistory := rfl
@[simp] theorem State.storeBytes_agenda : (s.storeBytes a bs).agenda = s.agenda := rfl
end

section
variable (s : State) (a : Nat) (x : Half)

@[simp] theorem State.storeHalf_nMax : (s.storeHalf a x).nMax = s.nMax := rfl
@[simp] theorem State.storeHalf_rstN : (s.storeHalf a x).rstN = s.rstN := rfl
@[simp] theorem State.storeHalf_buf : (s.storeHalf a x).buf = Memory.setBytes s.buf a (halfBytes x) := rfl
@[simp] theorem State.storeHalf_done : (s.storeHalf a x).done = s.done := rfl
@[simp] theorem State.storeHalf_err : (s.storeHalf a x).err = s.err := rfl
@[simp] theorem State.storeHalf_len : (s.storeHalf a x).len = s.len := rfl
@[simp] theorem State.storeHalf_outlen : (s.storeHalf a x).outlen = s.outlen := rfl
@[simp] theorem State.storeHalf_doneIE : (s.storeHalf a x).doneIE = s.doneIE := rfl
@[simp] theorem State.storeHalf_phase : (s.storeHalf a x).phase = s.phase := rfl
@[simp] theorem State.storeHalf_op : (s.storeHalf a x).op = s.op := rfl
@[simp] theorem State.storeHalf_lenLatched : (s.storeHalf a x).lenLatched = s.lenLatched := rfl
@[simp] theorem State.storeHalf_n : (s.storeHalf a x).n = s.n := rfl
@[simp] theorem State.storeHalf_j : (s.storeHalf a x).j = s.j := rfl
@[simp] theorem State.storeHalf_i : (s.storeHalf a x).i = s.i := rfl
@[simp] theorem State.storeHalf_t : (s.storeHalf a x).t = s.t := rfl
@[simp] theorem State.storeHalf_creq : (s.storeHalf a x).creq = s.creq := rfl
@[simp] theorem State.storeHalf_cdir : (s.storeHalf a x).cdir = s.cdir := rfl
@[simp] theorem State.storeHalf_cin : (s.storeHalf a x).cin = s.cin := rfl
@[simp] theorem State.storeHalf_cout : (s.storeHalf a x).cout = s.cout := rfl
@[simp] theorem State.storeHalf_response : (s.storeHalf a x).response = s.response := rfl
@[simp] theorem State.storeHalf_bufHistory : (s.storeHalf a x).bufHistory = s.bufHistory := rfl
@[simp] theorem State.storeHalf_agenda : (s.storeHalf a x).agenda = s.agenda := rfl
end

section
variable (s : State) (k : Nat) (d : Word)

@[simp] theorem State.storeWord_nMax : (s.storeWord k d).nMax = s.nMax := rfl
@[simp] theorem State.storeWord_rstN : (s.storeWord k d).rstN = s.rstN := rfl
@[simp] theorem State.storeWord_buf : (s.storeWord k d).buf = Memory.setBytes s.buf k (wordBytes d) := rfl
@[simp] theorem State.storeWord_done : (s.storeWord k d).done = s.done := rfl
@[simp] theorem State.storeWord_err : (s.storeWord k d).err = s.err := rfl
@[simp] theorem State.storeWord_len : (s.storeWord k d).len = s.len := rfl
@[simp] theorem State.storeWord_outlen : (s.storeWord k d).outlen = s.outlen := rfl
@[simp] theorem State.storeWord_doneIE : (s.storeWord k d).doneIE = s.doneIE := rfl
@[simp] theorem State.storeWord_phase : (s.storeWord k d).phase = s.phase := rfl
@[simp] theorem State.storeWord_op : (s.storeWord k d).op = s.op := rfl
@[simp] theorem State.storeWord_lenLatched : (s.storeWord k d).lenLatched = s.lenLatched := rfl
@[simp] theorem State.storeWord_n : (s.storeWord k d).n = s.n := rfl
@[simp] theorem State.storeWord_j : (s.storeWord k d).j = s.j := rfl
@[simp] theorem State.storeWord_i : (s.storeWord k d).i = s.i := rfl
@[simp] theorem State.storeWord_t : (s.storeWord k d).t = s.t := rfl
@[simp] theorem State.storeWord_creq : (s.storeWord k d).creq = s.creq := rfl
@[simp] theorem State.storeWord_cdir : (s.storeWord k d).cdir = s.cdir := rfl
@[simp] theorem State.storeWord_cin : (s.storeWord k d).cin = s.cin := rfl
@[simp] theorem State.storeWord_cout : (s.storeWord k d).cout = s.cout := rfl
@[simp] theorem State.storeWord_response : (s.storeWord k d).response = s.response := rfl
@[simp] theorem State.storeWord_bufHistory : (s.storeWord k d).bufHistory = s.bufHistory := rfl
@[simp] theorem State.storeWord_agenda : (s.storeWord k d).agenda = s.agenda := rfl
end

section
variable (s : State) (m : Nat)

@[simp] theorem State.zeroBuf_nMax : (s.zeroBuf m).nMax = s.nMax := rfl
@[simp] theorem State.zeroBuf_rstN : (s.zeroBuf m).rstN = s.rstN := rfl
@[simp] theorem State.zeroBuf_buf : (s.zeroBuf m).buf = Memory.setBytes s.buf 0 (List.replicate m 0) := rfl
@[simp] theorem State.zeroBuf_done : (s.zeroBuf m).done = s.done := rfl
@[simp] theorem State.zeroBuf_err : (s.zeroBuf m).err = s.err := rfl
@[simp] theorem State.zeroBuf_len : (s.zeroBuf m).len = s.len := rfl
@[simp] theorem State.zeroBuf_outlen : (s.zeroBuf m).outlen = s.outlen := rfl
@[simp] theorem State.zeroBuf_doneIE : (s.zeroBuf m).doneIE = s.doneIE := rfl
@[simp] theorem State.zeroBuf_phase : (s.zeroBuf m).phase = s.phase := rfl
@[simp] theorem State.zeroBuf_op : (s.zeroBuf m).op = s.op := rfl
@[simp] theorem State.zeroBuf_lenLatched : (s.zeroBuf m).lenLatched = s.lenLatched := rfl
@[simp] theorem State.zeroBuf_n : (s.zeroBuf m).n = s.n := rfl
@[simp] theorem State.zeroBuf_j : (s.zeroBuf m).j = s.j := rfl
@[simp] theorem State.zeroBuf_i : (s.zeroBuf m).i = s.i := rfl
@[simp] theorem State.zeroBuf_t : (s.zeroBuf m).t = s.t := rfl
@[simp] theorem State.zeroBuf_creq : (s.zeroBuf m).creq = s.creq := rfl
@[simp] theorem State.zeroBuf_cdir : (s.zeroBuf m).cdir = s.cdir := rfl
@[simp] theorem State.zeroBuf_cin : (s.zeroBuf m).cin = s.cin := rfl
@[simp] theorem State.zeroBuf_cout : (s.zeroBuf m).cout = s.cout := rfl
@[simp] theorem State.zeroBuf_response : (s.zeroBuf m).response = s.response := rfl
@[simp] theorem State.zeroBuf_bufHistory : (s.zeroBuf m).bufHistory = s.bufHistory := rfl
@[simp] theorem State.zeroBuf_agenda : (s.zeroBuf m).agenda = s.agenda := rfl
end

section
variable (s : State) (rest : List Event)

@[simp] theorem State.beginTurn_nMax : (s.beginTurn rest).nMax = s.nMax := rfl
@[simp] theorem State.beginTurn_rstN : (s.beginTurn rest).rstN = s.rstN := rfl
@[simp] theorem State.beginTurn_buf : (s.beginTurn rest).buf = s.buf := rfl
@[simp] theorem State.beginTurn_done : (s.beginTurn rest).done = s.done := rfl
@[simp] theorem State.beginTurn_err : (s.beginTurn rest).err = s.err := rfl
@[simp] theorem State.beginTurn_len : (s.beginTurn rest).len = s.len := rfl
@[simp] theorem State.beginTurn_outlen : (s.beginTurn rest).outlen = s.outlen := rfl
@[simp] theorem State.beginTurn_doneIE : (s.beginTurn rest).doneIE = s.doneIE := rfl
@[simp] theorem State.beginTurn_phase : (s.beginTurn rest).phase = s.phase := rfl
@[simp] theorem State.beginTurn_op : (s.beginTurn rest).op = s.op := rfl
@[simp] theorem State.beginTurn_lenLatched : (s.beginTurn rest).lenLatched = s.lenLatched := rfl
@[simp] theorem State.beginTurn_n : (s.beginTurn rest).n = s.n := rfl
@[simp] theorem State.beginTurn_j : (s.beginTurn rest).j = s.j := rfl
@[simp] theorem State.beginTurn_i : (s.beginTurn rest).i = s.i := rfl
@[simp] theorem State.beginTurn_t : (s.beginTurn rest).t = s.t := rfl
@[simp] theorem State.beginTurn_creq : (s.beginTurn rest).creq = s.creq := rfl
@[simp] theorem State.beginTurn_cdir : (s.beginTurn rest).cdir = s.cdir := rfl
@[simp] theorem State.beginTurn_cin : (s.beginTurn rest).cin = s.cin := rfl
@[simp] theorem State.beginTurn_cout : (s.beginTurn rest).cout = s.cout := rfl
@[simp] theorem State.beginTurn_response : (s.beginTurn rest).response = none := rfl
@[simp] theorem State.beginTurn_bufHistory : (s.beginTurn rest).bufHistory = s.bufHistory := rfl
@[simp] theorem State.beginTurn_agenda : (s.beginTurn rest).agenda = rest := rfl
end

section
variable (s : State) (h : HostWord)

@[simp] theorem State.withHostWord_nMax : (s.withHostWord h).nMax = s.nMax := rfl
@[simp] theorem State.withHostWord_rstN : (s.withHostWord h).rstN = s.rstN := rfl
@[simp] theorem State.withHostWord_buf : (s.withHostWord h).buf = s.buf := rfl
@[simp] theorem State.withHostWord_done : (s.withHostWord h).done = s.done := rfl
@[simp] theorem State.withHostWord_err : (s.withHostWord h).err = s.err := rfl
@[simp] theorem State.withHostWord_len : (s.withHostWord h).len = s.len := rfl
@[simp] theorem State.withHostWord_outlen : (s.withHostWord h).outlen = s.outlen := rfl
@[simp] theorem State.withHostWord_doneIE : (s.withHostWord h).doneIE = s.doneIE := rfl
@[simp] theorem State.withHostWord_phase : (s.withHostWord h).phase = s.phase := rfl
@[simp] theorem State.withHostWord_op : (s.withHostWord h).op = s.op := rfl
@[simp] theorem State.withHostWord_lenLatched : (s.withHostWord h).lenLatched = s.lenLatched := rfl
@[simp] theorem State.withHostWord_n : (s.withHostWord h).n = s.n := rfl
@[simp] theorem State.withHostWord_j : (s.withHostWord h).j = s.j := rfl
@[simp] theorem State.withHostWord_i : (s.withHostWord h).i = s.i := rfl
@[simp] theorem State.withHostWord_t : (s.withHostWord h).t = s.t := rfl
@[simp] theorem State.withHostWord_creq : (s.withHostWord h).creq = s.creq := rfl
@[simp] theorem State.withHostWord_cdir : (s.withHostWord h).cdir = s.cdir := rfl
@[simp] theorem State.withHostWord_cin : (s.withHostWord h).cin = s.cin := rfl
@[simp] theorem State.withHostWord_cout : (s.withHostWord h).cout = s.cout := rfl
@[simp] theorem State.withHostWord_response : (s.withHostWord h).response = s.response := rfl
@[simp] theorem State.withHostWord_bufHistory : (s.withHostWord h).bufHistory = s.bufHistory := rfl
@[simp] theorem State.withHostWord_agenda : (s.withHostWord h).agenda = .host h :: s.agenda := rfl
end

section
variable (s : State) 

@[simp] theorem startWrap_nMax : (startWrap s).nMax = s.nMax := rfl
@[simp] theorem startWrap_rstN : (startWrap s).rstN = s.rstN := rfl
@[simp] theorem startWrap_buf : (startWrap s).buf = Memory.setBytes s.buf 0 (halfBytes iv) := rfl
@[simp] theorem startWrap_done : (startWrap s).done = s.done := rfl
@[simp] theorem startWrap_err : (startWrap s).err = s.err := rfl
@[simp] theorem startWrap_len : (startWrap s).len = s.len := rfl
@[simp] theorem startWrap_outlen : (startWrap s).outlen = s.outlen := rfl
@[simp] theorem startWrap_doneIE : (startWrap s).doneIE = s.doneIE := rfl
@[simp] theorem startWrap_phase : (startWrap s).phase = .round := rfl
@[simp] theorem startWrap_op : (startWrap s).op = .wrap := rfl
@[simp] theorem startWrap_lenLatched : (startWrap s).lenLatched = s.len := rfl
@[simp] theorem startWrap_n : (startWrap s).n = wrapBlocks s.len := rfl
@[simp] theorem startWrap_j : (startWrap s).j = 0 := rfl
@[simp] theorem startWrap_i : (startWrap s).i = 1 := rfl
@[simp] theorem startWrap_t : (startWrap s).t = 0 := rfl
@[simp] theorem startWrap_creq : (startWrap s).creq = s.creq := rfl
@[simp] theorem startWrap_cdir : (startWrap s).cdir = s.cdir := rfl
@[simp] theorem startWrap_cin : (startWrap s).cin = s.cin := rfl
@[simp] theorem startWrap_cout : (startWrap s).cout = s.cout := rfl
@[simp] theorem startWrap_response : (startWrap s).response = s.response := rfl
@[simp] theorem startWrap_bufHistory : (startWrap s).bufHistory = s.bufHistory := rfl
@[simp] theorem startWrap_agenda : (startWrap s).agenda = s.agenda := rfl
end

section
variable (s : State) 

@[simp] theorem startUnwrap_nMax : (startUnwrap s).nMax = s.nMax := rfl
@[simp] theorem startUnwrap_rstN : (startUnwrap s).rstN = s.rstN := rfl
@[simp] theorem startUnwrap_buf : (startUnwrap s).buf = s.buf := rfl
@[simp] theorem startUnwrap_done : (startUnwrap s).done = s.done := rfl
@[simp] theorem startUnwrap_err : (startUnwrap s).err = s.err := rfl
@[simp] theorem startUnwrap_len : (startUnwrap s).len = s.len := rfl
@[simp] theorem startUnwrap_outlen : (startUnwrap s).outlen = s.outlen := rfl
@[simp] theorem startUnwrap_doneIE : (startUnwrap s).doneIE = s.doneIE := rfl
@[simp] theorem startUnwrap_phase : (startUnwrap s).phase = .round := rfl
@[simp] theorem startUnwrap_op : (startUnwrap s).op = .unwrap := rfl
@[simp] theorem startUnwrap_lenLatched : (startUnwrap s).lenLatched = s.len := rfl
@[simp] theorem startUnwrap_n : (startUnwrap s).n = unwrapBlocks s.len := rfl
@[simp] theorem startUnwrap_j : (startUnwrap s).j = 5 := rfl
@[simp] theorem startUnwrap_i : (startUnwrap s).i = unwrapBlocks s.len := rfl
@[simp] theorem startUnwrap_t : (startUnwrap s).t = roundCount (unwrapBlocks s.len) := rfl
@[simp] theorem startUnwrap_creq : (startUnwrap s).creq = s.creq := rfl
@[simp] theorem startUnwrap_cdir : (startUnwrap s).cdir = s.cdir := rfl
@[simp] theorem startUnwrap_cin : (startUnwrap s).cin = s.cin := rfl
@[simp] theorem startUnwrap_cout : (startUnwrap s).cout = s.cout := rfl
@[simp] theorem startUnwrap_response : (startUnwrap s).response = s.response := rfl
@[simp] theorem startUnwrap_bufHistory : (startUnwrap s).bufHistory = s.bufHistory := rfl
@[simp] theorem startUnwrap_agenda : (startUnwrap s).agenda = s.agenda := rfl
end

section
variable (s : State) 

@[simp] theorem issue_nMax : (issue s).nMax = s.nMax := rfl
@[simp] theorem issue_rstN : (issue s).rstN = s.rstN := rfl
@[simp] theorem issue_buf : (issue s).buf = s.buf := rfl
@[simp] theorem issue_done : (issue s).done = s.done := rfl
@[simp] theorem issue_err : (issue s).err = s.err := rfl
@[simp] theorem issue_len : (issue s).len = s.len := rfl
@[simp] theorem issue_outlen : (issue s).outlen = s.outlen := rfl
@[simp] theorem issue_doneIE : (issue s).doneIE = s.doneIE := rfl
@[simp] theorem issue_phase : (issue s).phase = s.phase := rfl
@[simp] theorem issue_op : (issue s).op = s.op := rfl
@[simp] theorem issue_lenLatched : (issue s).lenLatched = s.lenLatched := rfl
@[simp] theorem issue_n : (issue s).n = s.n := rfl
@[simp] theorem issue_j : (issue s).j = s.j := rfl
@[simp] theorem issue_i : (issue s).i = s.i := rfl
@[simp] theorem issue_t : (issue s).t = s.t := rfl
@[simp] theorem issue_creq : (issue s).creq = true := rfl
@[simp] theorem issue_cdir : (issue s).cdir = opDir s.op := rfl
@[simp] theorem issue_cin : (issue s).cin = cipherInput s := rfl
@[simp] theorem issue_cout : (issue s).cout = s.cout := rfl
@[simp] theorem issue_response : (issue s).response = s.response := rfl
@[simp] theorem issue_bufHistory : (issue s).bufHistory = s.bufHistory := rfl
@[simp] theorem issue_agenda : (issue s).agenda = s.agenda := rfl
end

section
variable (s : State) (b : Block)

@[simp] theorem latch_nMax : (latch b s).nMax = s.nMax := rfl
@[simp] theorem latch_rstN : (latch b s).rstN = s.rstN := rfl
@[simp] theorem latch_buf : (latch b s).buf = s.buf := rfl
@[simp] theorem latch_done : (latch b s).done = s.done := rfl
@[simp] theorem latch_err : (latch b s).err = s.err := rfl
@[simp] theorem latch_len : (latch b s).len = s.len := rfl
@[simp] theorem latch_outlen : (latch b s).outlen = s.outlen := rfl
@[simp] theorem latch_doneIE : (latch b s).doneIE = s.doneIE := rfl
@[simp] theorem latch_phase : (latch b s).phase = s.phase := rfl
@[simp] theorem latch_op : (latch b s).op = s.op := rfl
@[simp] theorem latch_lenLatched : (latch b s).lenLatched = s.lenLatched := rfl
@[simp] theorem latch_n : (latch b s).n = s.n := rfl
@[simp] theorem latch_j : (latch b s).j = s.j := rfl
@[simp] theorem latch_i : (latch b s).i = s.i := rfl
@[simp] theorem latch_t : (latch b s).t = s.t := rfl
@[simp] theorem latch_creq : (latch b s).creq = false := rfl
@[simp] theorem latch_cdir : (latch b s).cdir = s.cdir := rfl
@[simp] theorem latch_cin : (latch b s).cin = s.cin := rfl
@[simp] theorem latch_cout : (latch b s).cout = b := rfl
@[simp] theorem latch_response : (latch b s).response = s.response := rfl
@[simp] theorem latch_bufHistory : (latch b s).bufHistory = s.bufHistory := rfl
@[simp] theorem latch_agenda : (latch b s).agenda = s.agenda := rfl
end

section
variable (s : State) (a r : Half)

@[simp] theorem storeRound_nMax : (storeRound a r s).nMax = s.nMax := rfl
@[simp] theorem storeRound_rstN : (storeRound a r s).rstN = s.rstN := rfl
@[simp] theorem storeRound_buf : (storeRound a r s).buf = Memory.setBytes (Memory.setBytes s.buf 0 (halfBytes a)) (8 * s.i.toNat) (halfBytes r) := rfl
@[simp] theorem storeRound_done : (storeRound a r s).done = s.done := rfl
@[simp] theorem storeRound_err : (storeRound a r s).err = s.err := rfl
@[simp] theorem storeRound_len : (storeRound a r s).len = s.len := rfl
@[simp] theorem storeRound_outlen : (storeRound a r s).outlen = s.outlen := rfl
@[simp] theorem storeRound_doneIE : (storeRound a r s).doneIE = s.doneIE := rfl
@[simp] theorem storeRound_phase : (storeRound a r s).phase = s.phase := rfl
@[simp] theorem storeRound_op : (storeRound a r s).op = s.op := rfl
@[simp] theorem storeRound_lenLatched : (storeRound a r s).lenLatched = s.lenLatched := rfl
@[simp] theorem storeRound_n : (storeRound a r s).n = s.n := rfl
@[simp] theorem storeRound_j : (storeRound a r s).j = s.j := rfl
@[simp] theorem storeRound_i : (storeRound a r s).i = s.i := rfl
@[simp] theorem storeRound_t : (storeRound a r s).t = s.t := rfl
@[simp] theorem storeRound_creq : (storeRound a r s).creq = s.creq := rfl
@[simp] theorem storeRound_cdir : (storeRound a r s).cdir = s.cdir := rfl
@[simp] theorem storeRound_cin : (storeRound a r s).cin = s.cin := rfl
@[simp] theorem storeRound_cout : (storeRound a r s).cout = s.cout := rfl
@[simp] theorem storeRound_response : (storeRound a r s).response = s.response := rfl
@[simp] theorem storeRound_bufHistory : (storeRound a r s).bufHistory = s.bufHistory := rfl
@[simp] theorem storeRound_agenda : (storeRound a r s).agenda = s.agenda := rfl
end

/-! Answers of the bus slave, all of them `respond`. -/

@[simp] theorem State.readOkay_eq (s : State) (d : Word) : s.readOkay d = s.respond (some d) .okay := rfl
@[simp] theorem State.readRefused_eq (s : State) : s.readRefused = s.respond (some 0) .slverr := rfl
@[simp] theorem State.writeOkay_eq (s : State) : s.writeOkay = s.respond none .okay := rfl
@[simp] theorem State.writeRefused_eq (s : State) : s.writeRefused = s.respond none .slverr := rfl

/-! BUSY and the bytes of BUF under the updates that leave them alone. -/

@[simp] theorem State.busy_respond (s : State) (d : Option Word) (r : Resp) : (s.respond d r).busy = s.busy := rfl
@[simp] theorem State.busy_clearStatus (s : State) : s.clearStatus.busy = s.busy := rfl
@[simp] theorem State.busy_complete (s : State) (e : ErrCode) (w : Word) : (s.complete e w).busy = false := rfl
@[simp] theorem State.busy_writeStatus (s : State) (d : Word) : (s.writeStatus d).busy = s.busy := rfl
@[simp] theorem State.busy_writeIrqEn (s : State) (d : Word) : (s.writeIrqEn d).busy = s.busy := rfl
@[simp] theorem State.busy_writeLen (s : State) (d : Word) : (s.writeLen d).busy = s.busy := rfl
@[simp] theorem State.busy_storeBytes (s : State) (a : Nat) (bs : List Byte) : (s.storeBytes a bs).busy = s.busy := rfl
@[simp] theorem State.busy_beginTurn (s : State) (rest : List Event) : (s.beginTurn rest).busy = s.busy := rfl
@[simp] theorem busy_startWrap (s : State) : (startWrap s).busy = true := rfl
@[simp] theorem busy_startUnwrap (s : State) : (startUnwrap s).busy = true := rfl
@[simp] theorem State.bufByte_respond (s : State) (d : Option Word) (r : Resp) (k : Nat) : (s.respond d r).bufByte k = s.bufByte k := rfl
@[simp] theorem State.bufByte_clearStatus (s : State) (k : Nat) : s.clearStatus.bufByte k = s.bufByte k := rfl
@[simp] theorem State.bufByte_complete (s : State) (e : ErrCode) (w : Word) (k : Nat) : (s.complete e w).bufByte k = s.bufByte k := rfl
@[simp] theorem State.bufByte_writeStatus (s : State) (d : Word) (k : Nat) : (s.writeStatus d).bufByte k = s.bufByte k := rfl
@[simp] theorem State.bufByte_writeIrqEn (s : State) (d : Word) (k : Nat) : (s.writeIrqEn d).bufByte k = s.bufByte k := rfl
@[simp] theorem State.bufByte_writeLen (s : State) (d : Word) (k : Nat) : (s.writeLen d).bufByte k = s.bufByte k := rfl
@[simp] theorem State.bufByte_beginTurn (s : State) (rest : List Event) (k : Nat) : (s.beginTurn rest).bufByte k = s.bufByte k := rfl
@[simp] theorem bufByte_startUnwrap (s : State) (k : Nat) : (startUnwrap s).bufByte k = s.bufByte k := rfl
@[simp] theorem bufByte_issue (s : State) (k : Nat) : (issue s).bufByte k = s.bufByte k := rfl
@[simp] theorem bufByte_latch (s : State) (b : Block) (k : Nat) : (latch b s).bufByte k = s.bufByte k := rfl

end Sys2Proof.Machine
end

