-- ==== Sys2Proof/Laws/Ops.lean ====
section
/-! SUPPORT. What each shared operation, each agent's move and each step can do, said once: the proofs cite these and do
not unfold the operations. -/

namespace Sys2Proof.Machine

/-- Out of reset a transaction is answered. -/
theorem transact_eq_next {s : State} (h : s.rstN = true) (f : State → State) : transact s f = .next (f s) := by
  simp [transact, h]

/-- A transaction that answers a next state: not in reset, and the state is its effect. -/
theorem transact_cases {s t : State} {f : State → State} (h : transact s f = .next t) : s.rstN = true ∧ t = f s := by
  unfold transact at h
  split at h
  · rename_i hr; cases h; exact ⟨hr, rfl⟩
  · cases h

/-- No transaction faults. -/
theorem transact_ne_fault (s : State) (f : State → State) (r : Fault) : transact s f ≠ .fault r := by
  unfold transact; split <;> simp

theorem writeIdle_busy {s : State} (h : s.busy = true) (f : State → State) : writeIdle f s = s.respond none .slverr := by
  simp [writeIdle, h]

theorem writeIdle_idle {s : State} (h : s.busy = false) (f : State → State) :
    writeIdle f s = (f s).respond none .okay := by
  simp [writeIdle, h]

/-- The effect of each instruction out of reset. -/
def effectOf : Instr → State → State
  | .nop => writeIdle acceptNop
  | .wrap => writeIdle acceptWrap
  | .unwrap => writeIdle acceptUnwrap
  | .illegal opc mbz => writeIdle (accept (mbz ++ opc))
  | .rdId => fun s => s.readOkay idValue
  | .rdCaps => fun s => s.readOkay (capsWord s.nMax)
  | .rdCmd => fun s => s.readOkay 0
  | .rdStatus => fun s => s.readOkay s.statusWord
  | .rdLen => fun s => s.readOkay s.len
  | .rdOutlen => fun s => s.readOkay s.outlen
  | .rdIrqEn => fun s => s.readOkay s.irqEnWord
  | .wrId _ => State.writeRefused
  | .wrCaps _ => State.writeRefused
  | .wrCmd d => writeIdle (accept d)
  | .wrStatus d => fun s => (s.writeStatus d).writeOkay
  | .wrLen d => writeIdle (State.writeLen d)
  | .wrOutlen _ => State.writeRefused
  | .wrIrqEn d => fun s => (s.writeIrqEn d).writeOkay
  | .rdBuf off => readBuf off
  | .wrBuf off d => writeBuf off d
  | .refused _ w _ _ => refuse w

/-- Every instruction is one transaction. -/
theorem exec_eq_transact (i : Instr) (s : State) : exec i s = transact s (effectOf i) := by
  cases i <;> rfl

/-- Acceptance has four cases (41_commands.md R64). -/
theorem accept_cases (w : Word) (s : State) :
    (w = cmdNop ∧ accept w s = s) ∨ (w = cmdWrap ∧ accept w s = acceptWrap s) ∨
      (w = cmdUnwrap ∧ accept w s = acceptUnwrap s) ∨
      (w ≠ cmdNop ∧ w ≠ cmdWrap ∧ w ≠ cmdUnwrap ∧ accept w s = acceptIllegal s) := by
  unfold accept
  split
  · exact .inl ⟨‹_›, rfl⟩
  · split
    · exact .inr (.inl ⟨‹_›, rfl⟩)
    · split
      · exact .inr (.inr (.inl ⟨‹_›, rfl⟩))
      · exact .inr (.inr (.inr ⟨‹_›, ‹_›, ‹_›, rfl⟩))

/-- WRAP is accepted or fails its length check (41_commands.md R68). -/
theorem acceptWrap_cases (s : State) :
    (wrapLenOK s.nMax s.len = true ∧ acceptWrap s = startWrap s.clearStatus) ∨
      (wrapLenOK s.nMax s.len = false ∧ acceptWrap s = s.clearStatus.complete .invalidLength 0) := by
  unfold acceptWrap
  split
  · exact .inl ⟨‹_›, rfl⟩
  · exact .inr ⟨eq_false_of_ne_true ‹_›, rfl⟩

/-- UNWRAP is accepted or fails its length check (41_commands.md R69). -/
theorem acceptUnwrap_cases (s : State) :
    (unwrapLenOK s.nMax s.len = true ∧ acceptUnwrap s = startUnwrap s.clearStatus) ∨
      (unwrapLenOK s.nMax s.len = false ∧ acceptUnwrap s = s.clearStatus.complete .invalidLength 0) := by
  unfold acceptUnwrap
  split
  · exact .inl ⟨‹_›, rfl⟩
  · exact .inr ⟨eq_false_of_ne_true ‹_›, rfl⟩

/-- What the engine's turn can do. -/
theorem engineTurn_cases {s t : State} (h : engineTurn s = .next t) :
    (s.phase = .idle ∧ t = s) ∨ (s.phase = .round ∧ s.creq = true ∧ t = s) ∨
      (s.phase = .round ∧ s.creq = false ∧ s.blockOK = true ∧ t = issue s) ∨
      (s.phase = .final ∧ s.n.toNat ≤ s.nMax ∧ t = finalStep s) := by
  unfold engineTurn at h
  split at h
  · cases h; exact .inl ⟨‹_›, rfl⟩
  · split at h
    · cases h; exact .inr (.inl ⟨‹_›, ‹_›, rfl⟩)
    · split at h
      · cases h; exact .inr (.inr (.inl ⟨‹_›, eq_false_of_ne_true ‹_›, ‹_›, rfl⟩))
      · cases h
  · split at h
    · cases h; exact .inr (.inr (.inr ⟨‹_›, ‹_›, rfl⟩))
    · cases h

/-- What a cipher's answer can do. -/
theorem cipherTurn_cases {s t : State} {b : Block} (h : cipherTurn b s = .next t) :
    (s.creq = false ∧ t = s) ∨
      (s.creq = true ∧ s.phase = .round ∧ s.blockOK = true ∧ t = roundWith b s) := by
  unfold cipherTurn at h
  split at h
  · split at h
    · rename_i hp; cases h; exact .inr ⟨‹_›, hp.1, hp.2, rfl⟩
    · cases h
  · cases h; exact .inl ⟨eq_false_of_ne_true ‹_›, rfl⟩

/-- What the reset line can do. -/
theorem rstTurn_cases {s t : State} {level : Bool} (h : rstTurn level s = .next t) :
    (level = true ∧ s.rstN = true ∧ t = s) ∨ ((level = false ∨ s.rstN = false) ∧ t = resetWith level s) := by
  unfold rstTurn at h
  split at h
  · rename_i hl; cases h; simp only [Bool.and_eq_true] at hl; exact .inl ⟨hl.1, hl.2, rfl⟩
  · rename_i hl
    cases h
    refine .inr ⟨?_, rfl⟩
    cases level <;> simp_all

/-- What a step can do: the host's transaction, the engine's turn, a cipher's answer, or the reset line. -/
theorem step_cases {s t : State} (h : step s = .next t) :
    (∃ h' rest, s.agenda = .host h' :: rest ∧
        exec (decode s.nMax h') (s.beginTurn rest) = .next t) ∨
      (∃ rest, (s.agenda = [] ∧ rest = [] ∨ s.agenda = .engine :: rest) ∧ engineTurn (s.beginTurn rest) = .next t) ∨
      (∃ b e rest, s.agenda = e :: rest ∧ (e = .cack ∨ e = .cackWith b) ∧ cipherTurn b (s.beginTurn rest) = .next t) ∨
      (∃ level rest, s.agenda = .rst level :: rest ∧ rstTurn level (s.beginTurn rest) = .next t) := by
  unfold step at h
  split at h
  · rename_i ha; exact .inr (.inl ⟨[], .inl ⟨ha, rfl⟩, h⟩)
  · rename_i e rest ha
    cases e with
    | host h' => exact .inl ⟨h', rest, ha, h⟩
    | engine => exact .inr (.inl ⟨rest, .inr ha, h⟩)
    | cack => exact .inr (.inr (.inl ⟨_, _, rest, ha, .inl rfl, h⟩))
    | cackWith b => exact .inr (.inr (.inl ⟨b, _, rest, ha, .inr rfl, h⟩))
    | rst level => exact .inr (.inr (.inr ⟨level, rest, ha, h⟩))

/-- What WRAP's `Advance` changes: the position and the phase (43_wrap.md R83). -/
theorem advanceWrap_eq (s : State) :
    advanceWrap s = { s with i := (advanceWrap s).i, j := (advanceWrap s).j, phase := (advanceWrap s).phase } := by
  unfold advanceWrap nextBlockWrap
  split <;> split <;> rfl

/-- What UNWRAP's `Advance` changes: the position and the phase (44_unwrap.md R90). -/
theorem advanceUnwrap_eq (s : State) :
    advanceUnwrap s = { s with i := (advanceUnwrap s).i, j := (advanceUnwrap s).j, phase := (advanceUnwrap s).phase } := by
  unfold advanceUnwrap nextBlockUnwrap
  split <;> split <;> rfl

/-- What a WrapRound changes (43_wrap.md R82). -/
theorem wrapRound_eq (b : Block) (s : State) :
    wrapRound b s =
      { storeRound (ctr (msb8 b) (s.t + 1)) (lsb8 b) s with
        t := s.t + 1, i := (wrapRound b s).i, j := (wrapRound b s).j, phase := (wrapRound b s).phase } := by
  unfold wrapRound; exact advanceWrap_eq _

/-- What an UnwrapRound changes (44_unwrap.md R89). -/
theorem unwrapRound_eq (b : Block) (s : State) :
    unwrapRound b s =
      { storeRound (msb8 b) (lsb8 b) s with
        t := s.t - 1, i := (unwrapRound b s).i, j := (unwrapRound b s).j, phase := (unwrapRound b s).phase } := by
  unfold unwrapRound; exact advanceUnwrap_eq _

/-- A round writes A and R[i] and no other byte (43_wrap.md R82, 44_unwrap.md R89). -/
theorem bufByte_storeRound_frame (s : State) (a r : Half) {k : Nat} (hA : 8 ≤ k)
    (hR : ¬ (8 * s.i.toNat ≤ k ∧ k < 8 * s.i.toNat + 8)) : (storeRound a r s).bufByte k = s.bufByte k := by
  unfold storeRound State.storeHalf
  rw [State.bufByte_storeBytes_frame _ (by rw [halfBytes_length]; exact hR),
    State.bufByte_storeBytes_frame _ (by rw [halfBytes_length]; omega)]

end Sys2Proof.Machine
end

