-- ==== Sys2Proof/Laws/Invariant.lean ====
section
/-! SUPPORT. The invariant does not read the agenda or the bus slave's answer. -/

namespace Sys2Proof.Machine

/-- The invariant is about the engine, not about what its surroundings do next. -/
theorem State.Inv.withEnvironment {s : State} (h : s.Inv) (agenda : List Event) (response : Option BusResponse) :
    { s with agenda := agenda, response := response }.Inv :=
  ⟨h.capacity, h.memForm, h.memRange, h.busyStatus, h.busyBlocks, h.busyLen, h.wrapLen, h.unwrapLen, h.roundRange,
    h.roundWrap, h.roundUnwrap, h.finalWrap, h.finalUnwrap, h.request, h.failureLen, h.inReset⟩

end Sys2Proof.Machine
end

