-- ==== Sys2Proof/Laws/PerInstr.lean ====
section
/-! SUPPORT. The family EncodedFields, one lemma per constructor of Instr: the bits of a well-formed instruction carry its
row's fixed fields (30_encoding.md R43 to R48, spec/opcode_table.json). -/

namespace Sys2Proof.Laws.EncodedFields

open Sys2Proof.Machine

/-- The row is of format CMD (spec/opcode_table.json). -/
def isCommand : Instr → Bool
  | .nop | .wrap | .unwrap | .illegal _ _ => true
  | _ => false

/-- The fixed fields W and OFF of a row of format BUS with one offset. -/
def fixedFields : Instr → Option (Bool × Offset)
  | .rdId => some (false, 0x000)
  | .rdCaps => some (false, 0x004)
  | .rdCmd => some (false, 0x008)
  | .rdStatus => some (false, 0x00C)
  | .rdLen => some (false, 0x010)
  | .rdOutlen => some (false, 0x014)
  | .rdIrqEn => some (false, 0x018)
  | .wrId _ => some (true, 0x000)
  | .wrCaps _ => some (true, 0x004)
  | .wrCmd _ => some (true, 0x008)
  | .wrStatus _ => some (true, 0x00C)
  | .wrLen _ => some (true, 0x010)
  | .wrOutlen _ => some (true, 0x014)
  | .wrIrqEn _ => some (true, 0x018)
  | .rdBuf off => some (false, off)
  | .wrBuf off _ => some (true, off)
  | .refused _ _ _ _ | .nop | .wrap | .unwrap | .illegal _ _ => none

/-- The encoding is of the row's format; a decoded transaction has SIZE = 2, OFF[1:0] = 0 and the row's W and OFF; a refused
one is not decoded by its size, alignment and offset. -/
def Statement (i : Instr) : Prop :=
  ∀ nMax, i.wf nMax = true →
    match encode i with
    | .cmd _ => isCommand i = true
    | .bus d =>
      match fixedFields i with
      | some (write, off) =>
        descSize d = 2 ∧ descWrite d = write ∧ descOff d = off ∧ aligned off = true ∧ decodes nMax (descSize d) off = true
      | none => isCommand i = false ∧ decodes nMax (descSize d) (descOff d) = false

theorem nop : Statement .nop := fun _ _ => rfl
theorem wrap : Statement .wrap := fun _ _ => rfl
theorem unwrap : Statement .unwrap := fun _ _ => rfl
theorem illegal (opc : BitVec 4) (mbz : BitVec 28) : Statement (.illegal opc mbz) := fun _ _ => rfl

/-- The fields of a register's read or write. -/
theorem register (nMax : Nat) (r : Reg) (write : Bool) (data : Word) :
    descSize (descriptor 2 write (regOffset r) data) = 2 ∧ descWrite (descriptor 2 write (regOffset r) data) = write ∧
      descOff (descriptor 2 write (regOffset r) data) = regOffset r ∧ aligned (regOffset r) = true ∧
      decodes nMax (descSize (descriptor 2 write (regOffset r) data)) (regOffset r) = true := by
  simp [decodes]

/-- The fields of a BUF word's read or write. -/
theorem buffer {nMax : Nat} {off : Offset} (h : isBufOffset nMax off = true) (write : Bool) (data : Word) :
    descSize (descriptor 2 write off data) = 2 ∧ descWrite (descriptor 2 write off data) = write ∧
      descOff (descriptor 2 write off data) = off ∧ aligned off = true ∧
      decodes nMax (descSize (descriptor 2 write off data)) off = true := by
  simp [decodes, h, ((isBufOffset_iff nMax off).1 h).1]

theorem rdId : Statement .rdId := fun nMax _ => register nMax .id false 0
theorem rdCaps : Statement .rdCaps := fun nMax _ => register nMax .caps false 0
theorem rdCmd : Statement .rdCmd := fun nMax _ => register nMax .cmd false 0
theorem rdStatus : Statement .rdStatus := fun nMax _ => register nMax .status false 0
theorem rdLen : Statement .rdLen := fun nMax _ => register nMax .len false 0
theorem rdOutlen : Statement .rdOutlen := fun nMax _ => register nMax .outlen false 0
theorem rdIrqEn : Statement .rdIrqEn := fun nMax _ => register nMax .irqEn false 0
theorem wrId (data : Word) : Statement (.wrId data) := fun nMax _ => register nMax .id true data
theorem wrCaps (data : Word) : Statement (.wrCaps data) := fun nMax _ => register nMax .caps true data
theorem wrCmd (data : Word) : Statement (.wrCmd data) := fun nMax _ => register nMax .cmd true data
theorem wrStatus (data : Word) : Statement (.wrStatus data) := fun nMax _ => register nMax .status true data
theorem wrLen (data : Word) : Statement (.wrLen data) := fun nMax _ => register nMax .len true data
theorem wrOutlen (data : Word) : Statement (.wrOutlen data) := fun nMax _ => register nMax .outlen true data
theorem wrIrqEn (data : Word) : Statement (.wrIrqEn data) := fun nMax _ => register nMax .irqEn true data
theorem rdBuf (off : Offset) : Statement (.rdBuf off) := fun _ h => buffer h false 0
theorem wrBuf (off : Offset) (data : Word) : Statement (.wrBuf off data) := fun _ h => buffer h true data

theorem refused (size : BitVec 2) (write : Bool) (off : Offset) (data : Word) :
    Statement (.refused size write off data) := by
  intro nMax h
  simpa [encode, fixedFields, isCommand, Instr.wf, wfRefused] using h

end Sys2Proof.Laws.EncodedFields
end

