-- ==== Sys2Proof/Tests/Slice0.lean ====
section
/-! SUPPORT. The model's own tests: well-formedness, decoding of words written out from the spec's encodings, one step of each
instruction with results from spec/95_test_vectors.md or worked out by hand from a rule, and a witness for the hypotheses of
each statement. -/

namespace Sys2Proof.Tests

open Sys2Proof Sys2Proof.Machine

/-! ## Helpers -/

/-- Whether an outcome is a next state that passes a check. -/
def nextSat (o : Host.Outcome State Fault Refusal) (p : State → Bool) : Bool :=
  match o with
  | .next t => p t
  | .fault _ => false
  | .refused _ => false

/-- The bus answer of an outcome, as data and OKAY. -/
def answers (o : Host.Outcome State Fault Refusal) (data : Option Word) (resp : Resp) : Bool :=
  nextSat o fun t => decide (t.response = some ⟨data, resp⟩)

/-- BUF[0..8), BUF[8..16), BUF[16..24) from three values. -/
def threeBlocks (a r1 r2 : Half) : List Host.Cell := (List.range 24).zip (halfBytes a ++ halfBytes r1 ++ halfBytes r2)

/-- An idle engine with V1's plaintext at BUF[8..24), LEN = 16 and stale bytes in A. -/
def idlePlain : State :=
  { State.reset with len := 16, buf := threeBlocks 0x5A5A5A5A5A5A5A5A 0x0011223344556677 0x8899AABBCCDDEEFF }

/-- An idle engine with V1's wrapped key and LEN = 24. -/
def idleWrapped : State :=
  { State.reset with len := 24, buf := threeBlocks 0x1FA68B0A8112B447 0xAEF34BD8FB5A7B82 0x9D3E862371D2CFE5 }

/-- WRAP of V1 accepted, no request sent. -/
def wrapAccepted : State :=
  { State.reset with
    len := 16, lenLatched := 16, op := .wrap, phase := .round, n := 2, t := 0, j := 0, i := 1,
    buf := threeBlocks 0xA6A6A6A6A6A6A6A6 0x0011223344556677 0x8899AABBCCDDEEFF }

/-- WRAP of V1 with its first request outstanding. -/
def wrapWaiting : State :=
  { wrapAccepted with creq := true, cdir := .encrypt, cin := 0xA6A6A6A6A6A6A6A60011223344556677 }

/-- UNWRAP of V1's wrapped key accepted. -/
def unwrapAccepted : State :=
  { State.reset with
    len := 24, lenLatched := 24, op := .unwrap, phase := .round, n := 2, t := 12, j := 5, i := 2,
    buf := threeBlocks 0x1FA68B0A8112B447 0xAEF34BD8FB5A7B82 0x9D3E862371D2CFE5 }

/-- UNWRAP of V1 with its first request outstanding: A with t = 12 encoded. -/
def unwrapWaiting : State :=
  { unwrapAccepted with creq := true, cdir := .decrypt, cin := 0x1FA68B0A8112B44B9D3E862371D2CFE5 }

/-- WRAP of V1 after its twelfth round (95_test_vectors.md V2). -/
def wrapEnding : State :=
  { State.reset with
    len := 16, lenLatched := 16, op := .wrap, phase := .final, n := 2, t := 12, j := 6, i := 1,
    buf := threeBlocks 0x1FA68B0A8112B447 0xAEF34BD8FB5A7B82 0x9D3E862371D2CFE5 }

/-- UNWRAP of V1 after its twelfth round, with `a` recovered (95_test_vectors.md V3, V5). -/
def unwrapEnding (a : Half) : State :=
  { State.reset with
    len := 24, lenLatched := 24, op := .unwrap, phase := .final, n := 2, t := 0, j := 7, i := 2,
    buf := threeBlocks a 0x0011223344556677 0x8899AABBCCDDEEFF }

/-! ## Well-formedness: a term each check accepts and one it refuses -/

theorem test_wf_illegal : (Instr.illegal 3 0).wf 64 = true ∧ (Instr.illegal 1 1).wf 64 = true := by decide
theorem test_ill_formed_illegal : (Instr.illegal 1 0).wf 64 = false ∧ (Instr.illegal 0 0).wf 64 = false := by decide
theorem test_wf_rdBuf : (Instr.rdBuf 0x304).wf 64 = true ∧ (Instr.rdBuf 0x100).wf 2 = true := by decide
theorem test_ill_formed_rdBuf : (Instr.rdBuf 0x308).wf 64 = false ∧ (Instr.rdBuf 0x102).wf 64 = false := by decide
theorem test_ill_formed_wrBuf : (Instr.wrBuf 0x0FC 0).wf 64 = false ∧ (Instr.wrBuf 0x118 0).wf 2 = false := by decide
theorem test_wf_refused : (Instr.refused 2 true 0x01C 1).wf 64 = true ∧ (Instr.refused 3 false 0x100 0).wf 64 = true := by decide
theorem test_ill_formed_refused : (Instr.refused 2 false 0x000 0).wf 64 = false := by decide

/-! ## Decoding: words written out from 30_encoding.md R44, R47, R48; descriptors as 95_test_vectors.md part 3 lists them -/

theorem test_decode_nop : decodeTableWord 32 0x00000000 = some .nop := by decide
theorem test_decode_wrap : decodeTableWord 32 0x00000001 = some .wrap := by decide
theorem test_decode_unwrap : decodeTableWord 32 0x00000002 = some .unwrap := by decide
theorem test_decode_illegal_opc : decodeTableWord 32 0x0000000F = some (.illegal 0xF 0) := by decide
theorem test_decode_illegal_mbz : decodeTableWord 32 0x80000000 = some (.illegal 0 0x8000000) := by decide
theorem test_decode_rdId : decodeTableWord 47 0x400000000000 = some .rdId := by decide
theorem test_decode_rdCaps : decodeTableWord 47 0x400400000000 = some .rdCaps := by decide
theorem test_decode_rdCmd : decodeTableWord 47 0x400800000000 = some .rdCmd := by decide
theorem test_decode_rdStatus : decodeTableWord 47 0x400C00000000 = some .rdStatus := by decide
theorem test_decode_rdLen : decodeTableWord 47 0x401000000000 = some .rdLen := by decide
theorem test_decode_rdOutlen : decodeTableWord 47 0x401400000000 = some .rdOutlen := by decide
theorem test_decode_rdIrqEn : decodeTableWord 47 0x401800000000 = some .rdIrqEn := by decide
theorem test_decode_wrId : decodeTableWord 47 0x500000000000 = some (.wrId 0) := by decide
theorem test_decode_wrCaps : decodeTableWord 47 0x500400000000 = some (.wrCaps 0) := by decide
theorem test_decode_wrCmd : decodeTableWord 47 0x500800000002 = some (.wrCmd 2) := by decide
theorem test_decode_wrStatus : decodeTableWord 47 0x500C00000002 = some (.wrStatus 2) := by decide
theorem test_decode_wrLen : decodeTableWord 47 0x501000000018 = some (.wrLen 0x18) := by decide
theorem test_decode_wrOutlen : decodeTableWord 47 0x501400000000 = some (.wrOutlen 0) := by decide
theorem test_decode_wrIrqEn : decodeTableWord 47 0x501800000001 = some (.wrIrqEn 1) := by decide
theorem test_decode_rdBuf : decodeTableWord 47 0x411C00000000 = some (.rdBuf 0x11C) := by decide
theorem test_decode_wrBuf : decodeTableWord 48 0x510833221100 = some (.wrBuf 0x108 0x33221100) := by decide
theorem test_decode_refused_reserved : decodeTableWord 47 0x501C00000001 = some (.refused 2 true 0x01C 1) := by decide
theorem test_decode_refused_size : decodeTableWord 47 0x010000000000 = some (.refused 0 false 0x100 0) := by decide
theorem test_decode_read_ignores_data : decodeTableWord 47 0x4000FFFFFFFF = some .rdId := by decide
theorem test_decode_rejects_bit47 : decodeBytes 64 [0, 0, 0, 0, 0, 0x80] = .error .bit47 := by decide
theorem test_decode_rejects_length : decodeBytes 64 [0, 0] = .error (.length 2) := by decide
theorem test_bit_by_bit : decode 64 (.bus 0b10100010000100000110011001000100001000100000000#47) = .wrBuf 0x108 0x33221100 := by decide

/-! ## Register accesses (95_test_vectors.md V15, V16) -/

theorem test_rdId : answers (exec .rdId State.reset) (some 0x4B573394) .okay = true := by decide
theorem test_rdCaps : answers (exec .rdCaps State.reset) (some 0x00000040) .okay = true := by decide
theorem test_rdCmd : answers (exec .rdCmd wrapAccepted) (some 0) .okay = true := by decide
theorem test_rdStatus_busy : answers (exec .rdStatus wrapWaiting) (some 0x00000001) .okay = true := by decide
theorem test_rdStatus_failure :
    answers (exec .rdStatus { State.reset with done := true, err := .integrityFailure }) (some 0x00000022) .okay = true := by
  decide
theorem test_rdLen : answers (exec .rdLen idleWrapped) (some 0x00000018) .okay = true := by decide
theorem test_rdOutlen : answers (exec .rdOutlen { State.reset with outlen := 0x18 }) (some 0x18) .okay = true := by decide
theorem test_rdIrqEn : answers (exec .rdIrqEn State.reset) (some 0) .okay = true := by decide
theorem test_wrId : answers (exec (.wrId 0) State.reset) none .slverr = true := by decide
theorem test_wrCaps : answers (exec (.wrCaps 0x40) State.reset) none .slverr = true := by decide
theorem test_wrOutlen :
    nextSat (exec (.wrOutlen 0) { State.reset with outlen := 0x18 }) (fun t => decide (t.outlen = 0x18)) = true := by decide
theorem test_wrStatus_ignores_others :
    nextSat (exec (.wrStatus 0xFFFFFFFD) { State.reset with done := true }) State.done = true := by decide
theorem test_wrStatus_clears :
    nextSat (exec (.wrStatus 2) { State.reset with done := true, err := .integrityFailure })
      (fun t => decide (t.statusWord = 0x00000020)) = true := by decide
theorem test_wrLen : nextSat (exec (.wrLen 0xFFFFFFF8) State.reset) (fun t => decide (t.len = 0xFFFFFFF8)) = true := by decide
theorem test_wrLen_busy :
    nextSat (exec (.wrLen 0x20) unwrapWaiting)
      (fun t => decide (t.len = 0x18 ∧ t.response = some ⟨none, .slverr⟩)) = true := by decide
theorem test_wrIrqEn :
    nextSat (exec (.wrIrqEn 0xFFFFFFFF) State.reset) (fun t => decide (t.irqEnWord = 1)) = true := by decide
theorem test_wrIrqEn_busy : answers (exec (.wrIrqEn 1) unwrapWaiting) none .okay = true := by decide

/-! ## BUF and refusals (95_test_vectors.md V15, V16) -/

theorem test_rdBuf : answers (exec (.rdBuf 0x100) idleWrapped) (some 0x0A8BA61F) .okay = true := by decide
theorem test_rdBuf_busy : answers (exec (.rdBuf 0x108) unwrapWaiting) (some 0) .slverr = true := by decide
theorem test_wrBuf_lanes :
    nextSat (exec (.wrBuf 0x108 0x33221100) State.reset)
      (fun t => decide (t.buf = [(8, 0x00), (9, 0x11), (10, 0x22), (11, 0x33)])) = true := by decide
theorem test_wrBuf_busy :
    nextSat (exec (.wrBuf 0x100 0) unwrapWaiting)
      (fun t => decide (t.buf = unwrapWaiting.buf ∧ t.response = some ⟨none, .slverr⟩)) = true := by decide
theorem test_refused_read : answers (exec (.refused 2 false 0x102 0) State.reset) (some 0) .slverr = true := by decide
theorem test_refused_write : answers (exec (.refused 2 true 0x01C 1) State.reset) none .slverr = true := by decide

/-- A byte nothing has written reads as its draw, whatever the draw is (00_scope.md R7). -/
theorem test_unwritten_byte (k : Nat) : State.reset.bufByte k = Config.bufReset [] k := rfl

/-- After a reset the draw may depend on what BUF held (70_reset_and_hazards.md R109). -/
theorem test_reset_draw (k : Nat) : (resetWith false idlePlain).bufByte k = Config.bufReset [idlePlain.buf] k := rfl

/-! ## Commands (95_test_vectors.md V4, V8, V9) -/

theorem test_nop_keeps_status :
    nextSat (exec .nop { State.reset with done := true, err := .integrityFailure })
      (fun t => decide (t.statusWord = 0x00000022)) = true := by decide
theorem test_nop_busy : answers (exec .nop unwrapWaiting) none .slverr = true := by decide
theorem test_illegal : nextSat (exec (.illegal 1 1) State.reset) (fun t => decide (t.statusWord = 0x00000032)) = true := by
  decide
theorem test_illegal_keeps_irq :
    nextSat (exec (.illegal 3 0) { State.reset with done := true, doneIE := true }) State.irq = true := by decide
theorem test_wrCmd_illegal : nextSat (exec (.wrCmd 0x11) idlePlain) (fun t => decide (t.statusWord = 0x32)) = true := by
  decide
theorem test_wrCmd_busy : answers (exec (.wrCmd 1) unwrapWaiting) none .slverr = true := by decide
theorem test_wrap_starts :
    nextSat (exec .wrap idlePlain)
      (fun t => decide (t = { wrapAccepted with response := some ⟨none, .okay⟩ })) = true := by decide
theorem test_wrap_length_17 :
    nextSat (exec .wrap { idlePlain with len := 17 }) (fun t => decide (t.statusWord = 0x12 ∧ t.buf = idlePlain.buf)) = true := by
  decide
theorem test_unwrap_starts :
    nextSat (exec .unwrap idleWrapped)
      (fun t => decide (t = { unwrapAccepted with response := some ⟨none, .okay⟩ })) = true := by decide
theorem test_unwrap_length_16 :
    nextSat (exec .unwrap { idleWrapped with len := 16 }) (fun t => decide (t.statusWord = 0x12)) = true := by decide
theorem test_length_bounds :
    wrapLenOK 64 0x200 = true ∧ wrapLenOK 64 0x208 = false ∧ wrapLenOK 2 0x10 = true ∧ wrapLenOK 2 0x18 = false ∧
    wrapLenOK 64 8 = false ∧ wrapLenOK 64 0xFFFFFFF8 = false ∧ unwrapLenOK 64 0x208 = true ∧
    unwrapLenOK 64 0x210 = false ∧ unwrapLenOK 2 0x18 = true ∧ unwrapLenOK 2 0x20 = false ∧ unwrapLenOK 64 0x17 = false := by
  decide

/-! ## Counter, rounds and finals (95_test_vectors.md V2, V3, V5, V10, V12, V14) -/

theorem test_ctr :
    ctr 0xA6A6A6A6A6A6A6A6 12 = 0xA6A6A6A6A6A6A6AA ∧ ctr 0 0x102 = 0x102 ∧
    ctr 0xA6A6A6A6A6A6A6A6 2874 = 0xA6A6A6A6A6A6AD9C := by decide
theorem test_wrap_request :
    nextSat (step wrapAccepted) (fun t => decide (t = wrapWaiting)) = true := by decide
theorem test_wrap_round_1 :
    nextSat (step { wrapWaiting with agenda := [.cackWith 0xF4740052E82A225174CE86FBD7B805E7] })
      (fun t => decide (t.regA = 0xF4740052E82A2250 ∧ t.regR 1 = 0x74CE86FBD7B805E7 ∧ t.t = 1 ∧ t.j = 0 ∧ t.i = 2)) = true := by
  decide
theorem test_unwrap_request :
    nextSat (step unwrapAccepted) (fun t => decide (t = unwrapWaiting)) = true := by decide
theorem test_unwrap_round_1 :
    nextSat (step { unwrapWaiting with agenda := [.cackWith 0x93B71967EED41FF74FD3D2B7D74FBB42] })
      (fun t => decide (t.regA = 0x93B71967EED41FF7 ∧ t.regR 2 = 0x4FD3D2B7D74FBB42 ∧ t.t = 11 ∧ t.j = 5 ∧ t.i = 1)) = true := by
  decide
theorem test_wrap_final :
    nextSat (step wrapEnding) (fun t => decide (t.statusWord = 2 ∧ t.outlen = 0x18 ∧ t.buf = wrapEnding.buf)) = true := by
  decide
theorem test_unwrap_success :
    nextSat (step (unwrapEnding 0xA6A6A6A6A6A6A6A6)) (fun t => decide (t.statusWord = 2 ∧ t.outlen = 0x10)) = true := by
  decide
theorem test_unwrap_failure_zeroes :
    nextSat (step { unwrapEnding 0xECC2839D214839B6 with buf := threeBlocks 0xECC2839D214839B6 1 2 ++ [(24, 0x5A)] })
      (fun t => decide (t.statusWord = 0x22 ∧ t.outlen = 0 ∧ t.buf = threeBlocks 0 0 0 ++ [(24, 0x5A)])) = true := by
  decide
theorem test_silent_cipher_waits : nextSat (step wrapWaiting) (fun t => decide (t = wrapWaiting)) = true := by decide

/-- The SWAP mock of 95_test_vectors.md. -/
def swap (b : Block) : Block := lsb8 b ++ msb8 b

theorem test_rfcWrap_swap :
    rfcWrap swap [0x1111111111111111, 0x2222222222222222] =
      (0xA6A6A6A6A6A6A6A6, [0x1111111111111119, 0x2222222222222226]) := by decide +kernel
theorem test_rfcUnwrap_swap :
    rfcUnwrap swap 0xA6A6A6A6A6A6A6A6 [0x1111111111111119, 0x2222222222222226] =
      (0xA6A6A6A6A6A6A6A6, [0x1111111111111111, 0x2222222222222222]) := by decide +kernel
theorem test_rfcWrap_ident :
    rfcWrap id [0x0102030405060708, 0x090A0B0C0D0E0F10, 0x1112131415161718] =
      (0xA6A6A6A6A6A6A6B5, [0x0102030405060708, 0x090A0B0C0D0E0F10, 0x1112131415161718]) := by decide +kernel

/-! ## Reset, interrupt, ports, scripts (95_test_vectors.md V17, V18; 30_encoding.md R49, R50) -/

theorem test_reset_status : State.reset.statusWord = 0 ∧ State.reset.irq = false := by decide
theorem test_reset_during_unwrap :
    nextSat (step { unwrapWaiting with agenda := [.rst false] })
      (fun t => decide (t.statusWord = 0 ∧ t.creq = false ∧ t.buf = [] ∧ t.rstN = false)) = true := by decide
theorem test_late_answer_after_reset :
    nextSat (step { State.reset with agenda := [.cackWith 5] }) (fun t => decide (t = State.reset)) = true := by decide
theorem test_irq_after_completion :
    nextSat (step { wrapEnding with doneIE := true }) State.irq = true := by decide
theorem test_ports_after_read :
    nextSat (step (State.reset.withFetchWord 47 0x400000000000))
      (fun t => decide (t.outputs.ready = true ∧ t.outputs.rdata = some 0x4B573394 ∧ t.outputs.slverr = some false)) = true := by
  decide
theorem test_fetch_runs_first : step (State.reset.withFetchWord 32 1) = exec .wrap State.reset := rfl
theorem test_loadB :
    (Pseudo.loadB 8 [0x00, 0x11, 0x22, 0x33, 0x44, 0x55, 0x66, 0x77]).expand =
      [.wr 0x108 0x33221100, .wr 0x10C 0x77665544] := by decide
/-- Outside the window (log 22): no wrap into CMD, but an offset that is refused. -/
theorem test_bufOffset :
    bufOffset 8 = 0x108 ∧ bufOffset 0xEFC = 0xFFC ∧ bufOffset 0xF08 = 0xFFF ∧ decodes 479 2 (bufOffset 0xF08) = false := by
  decide
theorem test_waitDone :
    Pseudo.waitDone.expand.map (ScriptLine.verdict ⟨some 0x00000001, .okay⟩) = [.again] ∧
    Pseudo.waitDone.expand.map (ScriptLine.verdict ⟨some 0x00000022, .okay⟩) = [.pass] := by decide
/-- The model's choices of log 20: a POLL's read must answer OKAY, and `RD!` compares the data. -/
theorem test_script_choices :
    (ScriptLine.poll 0x100 0xFF 0).verdict ⟨some 0, .slverr⟩ = .mismatch ∧
    (ScriptLine.rdErr 0x01C 0).verdict ⟨some 1, .slverr⟩ = .mismatch ∧
    (ScriptLine.rdErr 0x01C 0).verdict ⟨some 0, .slverr⟩ = .pass := by decide
theorem test_read_line_mismatch : (ScriptLine.rd 0 0x4B573394).verdict ⟨some 0, .slverr⟩ = .mismatch := by decide

/-! ## The platform's base address (00_scope.md R5) -/

theorem test_legal_kwBase : Config.LegalKwBase 0x40001000 ∧ ¬ Config.LegalKwBase 0x40001004 := by decide
theorem test_windowOffset :
    windowOffset 0x40001000 0x40001108 = some 0x108 ∧ windowOffset 0x40001000 0x40002000 = none ∧
    windowOffset 0x40001000 0x40000FFF = none := by decide

/-! ## Memory form -/

theorem test_reset_memory : Memory.wf State.reset.buf ∧ Memory.wf idlePlain.buf := by decide

/-! ## Witnesses: states and operands that meet the hypotheses of the statements -/

theorem reset_inv : State.reset.Inv := by constructor <;> decide
theorem idlePlain_inv : idlePlain.Inv := by constructor <;> decide
theorem idleWrapped_inv : idleWrapped.Inv := by constructor <;> decide
theorem wrapAccepted_inv : wrapAccepted.Inv := by constructor <;> decide
theorem wrapWaiting_inv : wrapWaiting.Inv := by constructor <;> decide
theorem unwrapAccepted_inv : unwrapAccepted.Inv := by constructor <;> decide
theorem unwrapWaiting_inv : unwrapWaiting.Inv := by constructor <;> decide

/-- The IDENT mock of 95_test_vectors.md. -/
def identCipher : Cipher := ⟨id, id⟩

/-- The SWAP mock of 95_test_vectors.md. -/
def swapCipher : Cipher := ⟨swap, swap⟩

/-- Reset asserted. -/
def inReset : State := { State.reset with rstN := false }

/-- A WRAP whose last block of the first round is at the cipher. -/
def wrapLastBlock : State :=
  { wrapWaiting with t := 1, i := 2, cin := 0xA6A6A6A6A6A6A6A68899AABBCCDDEEFF }

/-- A WRAP whose very last round is at the cipher. -/
def wrapLastRound : State :=
  { wrapWaiting with t := 11, j := 5, i := 2, cin := 0xA6A6A6A6A6A6A6A68899AABBCCDDEEFF }

/-- An UNWRAP whose round (5, 1) is at the cipher. -/
def unwrapFirstBlock : State :=
  { unwrapWaiting with t := 11, i := 1, cin := 0x1FA68B0A8112B44CAEF34BD8FB5A7B82 }

/-- An UNWRAP whose very last round (0, 1) is at the cipher. -/
def unwrapLastRound : State :=
  { unwrapWaiting with t := 1, j := 0, i := 1, cin := 0x1FA68B0A8112B446AEF34BD8FB5A7B82 }

theorem wrapLastBlock_inv : wrapLastBlock.Inv := by constructor <;> decide
theorem wrapLastRound_inv : wrapLastRound.Inv := by constructor <;> decide
theorem unwrapFirstBlock_inv : unwrapFirstBlock.Inv := by constructor <;> decide
theorem unwrapLastRound_inv : unwrapLastRound.Inv := by constructor <;> decide

/-- For ResetLeavesEveryRegisterAtItsValue, ResetMeetsTheInvariant and EveryRunFromPowerOnIsSafe. -/
theorem witness_LegalNMax : Config.LegalNMax 2 ∧ Config.LegalNMax 64 ∧ Config.LegalNMax 479 := by decide

theorem witness_ResetAbandonsEverything :
    { unwrapWaiting with agenda := [.rst false] }.agenda = .rst false :: [] := rfl

theorem witness_TransactionsDuringResetAreRefused : inReset.rstN = false := rfl

theorem witness_EveryStepKeepsTheInvariant : wrapAccepted.Inv ∧ step wrapAccepted = .next wrapWaiting :=
  ⟨wrapAccepted_inv, by rfl⟩

theorem witness_NoStepFaultsUnderTheInvariant : wrapWaiting.Inv := wrapWaiting_inv

theorem witness_EveryStepKeepsTheMemoryForm :
    step wrapAccepted = .next wrapWaiting ∧ Memory.wf wrapAccepted.buf ∧
      ∀ c ∈ wrapAccepted.buf, c.1 < bufSize wrapAccepted.nMax := ⟨by rfl, by decide, by decide⟩

theorem witness_DecodeUndoesEncode :
    (Instr.rdBuf 0x100).wf 2 = true ∧ (Instr.wrBuf 0x114 7).wf 2 = true ∧ (Instr.illegal 0 1).wf 2 = true ∧
    (Instr.refused 2 false 0x118 0).wf 2 = true ∧ Instr.nop.wf 2 = true := by decide

theorem witness_EncodeUndoesDecode :
    let read := descriptor 2 false 0x000 7
    let refusedRead := descriptor 1 false 0x000 7
    let write := descriptor 2 true 0x010 7
    (decodes 64 (descSize read) (descOff read) = true ∧ descWrite read = false) ∧
    decodes 64 (descSize refusedRead) (descOff refusedRead) = false ∧ descWrite write = true := by decide

theorem witness_TransactionDecodeFollowsItsTable :
    ((0x100 : Offset).toNat % 4 = 0 ∧ 0x100 ≤ (0x100 : Offset).toNat ∧ (0x100 : Offset).toNat ≤ 0x100 + 8 * (64 + 1) - 4) ∧
    ((0x304 : Offset).toNat % 4 = 0 ∧ 0x100 ≤ (0x304 : Offset).toNat ∧ (0x304 : Offset).toNat ≤ 0x100 + 8 * (64 + 1) - 4) ∧
    (3 : BitVec 2) ≠ 2 ∧ (0x102 : Offset).toNat % 4 ≠ 0 ∧
    (0x01C ≤ (0x01C : Offset).toNat ∧ (0x01C : Offset).toNat ≤ 0x0FF) ∧
    (0x01C ≤ (0x0FC : Offset).toNat ∧ (0x0FC : Offset).toNat ≤ 0x0FF) ∧
    0x100 + 8 * (64 + 1) ≤ (0x308 : Offset).toNat := by decide

theorem witness_CommandDecodeIsExact : (3 : Word) ≠ 0 ∧ (3 : Word) ≠ 1 ∧ (3 : Word) ≠ 2 := by decide

theorem witness_StepRunsTheDecodedTransaction :
    (State.reset.withHostWord (.cmd 1)).agenda = .host (.cmd 1) :: [] := rfl

theorem witness_FetchWordIsRunNext :
    tableHostWord 32 1 = some (.cmd 1) ∧ tableHostWord 47 0x400000000000 = some (.bus 0x400000000000) := by decide

/-- Out of reset and idle, as the statements about register accesses and commands ask. -/
theorem witness_idle : State.reset.rstN = true ∧ State.reset.busy = false ∧ State.reset.nMax ≤ 479 := by decide

/-- Out of reset and busy, with the invariant. -/
theorem witness_busy : unwrapWaiting.rstN = true ∧ unwrapWaiting.busy = true ∧ unwrapWaiting.Inv :=
  ⟨rfl, by decide, unwrapWaiting_inv⟩

theorem witness_EveryTransactionIsAnswered : State.reset.rstN = true := rfl
theorem witness_IdAndCapsReadTheirConstants : unwrapWaiting.rstN = true := rfl
theorem witness_ReadOnlyRegistersRefuseWrites : State.reset.rstN = true := rfl

theorem witness_CmdReadsZeroAndWritesAreAccepted :
    (State.reset.rstN = true ∧ State.reset.busy = false) ∧ (unwrapWaiting.rstN = true ∧ unwrapWaiting.busy = true) := by decide

theorem witness_StatusReadsItsFields : wrapWaiting.rstN = true ∧ wrapWaiting.Inv ∧ wrapWaiting.busy = true :=
  ⟨rfl, wrapWaiting_inv, by decide⟩

theorem witness_StatusWriteClearsDoneOnly : wrapWaiting.rstN = true ∧ wrapWaiting.Inv ∧ wrapWaiting.busy = true :=
  ⟨rfl, wrapWaiting_inv, by decide⟩

theorem witness_LenIsReadAndWritten :
    (State.reset.rstN = true ∧ State.reset.busy = false) ∧ (wrapWaiting.rstN = true ∧ wrapWaiting.busy = true) ∧
    (∃ t, exec (.wrCmd 3) State.reset = .next t) := ⟨by decide, by decide, _, rfl⟩

theorem witness_OutlenIsRead :
    (wrapWaiting.rstN = true ∧ wrapWaiting.Inv ∧ wrapWaiting.busy = true) ∧
    (let s : State := { State.reset with done := true, err := .integrityFailure }; s.rstN = true ∧ s.Inv ∧ s.err ≠ .none) :=
  ⟨⟨rfl, wrapWaiting_inv, by decide⟩, rfl, by constructor <;> decide, by decide⟩

theorem witness_IrqEnableIsReadAndWritten :
    let s : State := { State.reset with done := true }
    s.rstN = true ∧ s.done = true ∧ ∃ t, exec (.wrIrqEn 1) s = .next t := ⟨rfl, rfl, _, rfl⟩

theorem witness_BufWordIsRead :
    (∀ off ∈ [(0x100 : Offset), 0x304], 0x100 ≤ off.toNat ∧ off.toNat ≤ 0x100 + 8 * (idlePlain.nMax + 1) - 4 ∧
      off.toNat % 4 = 0) ∧
    (idlePlain.rstN = true ∧ idlePlain.busy = false) ∧ (wrapWaiting.rstN = true ∧ wrapWaiting.busy = true) := by decide

theorem witness_BufWordIsWritten :
    (∀ off ∈ [(0x100 : Offset), 0x304], 0x100 ≤ off.toNat ∧ off.toNat ≤ 0x100 + 8 * (idlePlain.nMax + 1) - 4 ∧
      off.toNat % 4 = 0) ∧
    (idlePlain.rstN = true ∧ idlePlain.busy = false) ∧ (wrapWaiting.rstN = true ∧ wrapWaiting.busy = true) := by decide

/-- For SystemAddressNamesItsOffset: a legal base, with an address inside its window and the first one above. -/
theorem witness_SystemAddressNamesItsOffset :
    Config.LegalKwBase 0x40001000 ∧ 0x40001FFF / 4096 = 0x40001000 / 4096 ∧ 0x40002000 / 4096 ≠ 0x40001000 / 4096 := by decide

theorem witness_RowsWithOperandsNoBitsDecodeTo :
    State.reset.rstN = true ∧ isBufOffset State.reset.nMax 0x308 = false ∧ isBufOffset State.reset.nMax 0x102 = false ∧
    isBufOffset State.reset.nMax 0x0FC = false := by decide

theorem witness_UndecodedTransactionsAreRefused :
    State.reset.rstN = true ∧ (Instr.refused 2 true 0x01C 1).wf State.reset.nMax = true ∧
    (Instr.refused 3 false 0xFFC 0).wf State.reset.nMax = true ∧ (0 : BitVec 2) ≠ 2 ∧ (0x102 : Offset).toNat % 4 ≠ 0 ∧
    (0x01C ≤ (0x01C : Offset).toNat ∧ (0x0FC : Offset).toNat ≤ 0x0FF) ∧
    0x100 + 8 * (State.reset.nMax + 1) ≤ (0x308 : Offset).toNat := by decide

theorem witness_BufWordsReadBack :
    State.reset.rstN = true ∧ State.reset.busy = false ∧ isBufOffset State.reset.nMax 0x100 = true ∧
    isBufOffset State.reset.nMax 0x304 = true ∧ (0x304 : Offset) ≠ 0x100 ∧
    (∃ t, exec (.wrBuf 0x100 5) State.reset = .next t) ∧
    (∃ v, exec (.rdBuf 0x304) State.reset = .next { State.reset with response := some ⟨some v, .okay⟩ }) :=
  ⟨by decide, by decide, by decide, by decide, by decide, ⟨_, rfl⟩, _, rfl⟩

theorem witness_LoadbPutsBytesInOrder :
    let bytes : List Byte := [0, 0x11, 0x22, 0x33]
    let s : State := { State.reset with agenda := [.host (.bus 0x510833221100)] }
    s.rstN = true ∧ s.busy = false ∧ s.nMax ≤ 479 ∧ 8 % 4 = 0 ∧ bytes.length % 4 = 0 ∧
    8 + bytes.length ≤ bufSize s.nMax ∧
    s.agenda = ((Pseudo.loadB 8 bytes).expand.filterMap ScriptLine.transaction).map Event.host := by decide

theorem witness_NopHasNoEffect :
    (State.reset.rstN = true ∧ State.reset.busy = false) ∧ (unwrapWaiting.rstN = true ∧ unwrapWaiting.busy = true) := by decide

theorem witness_IllegalWordsCompleteWithError :
    State.reset.rstN = true ∧ State.reset.busy = false ∧ ((0x11 : Word) ≠ 0 ∧ (0x11 : Word) ≠ 1 ∧ (0x11 : Word) ≠ 2) ∧
    (Instr.illegal 1 1).wf State.reset.nMax = true ∧ (Instr.illegal 3 0).wf State.reset.nMax = true := by decide

theorem witness_AcceptanceForgetsTheLastResult :
    idlePlain.rstN = true ∧ idlePlain.busy = false ∧ (1 : Word) ≠ 0 ∧
    ∃ t, exec (.wrCmd 1) idlePlain = .next t ∧ t.busy = true := ⟨rfl, by decide, by decide, _, rfl, by decide⟩

/-- Lengths that fail and lengths that pass, at the boundaries of each condition. -/
theorem witness_WrapChecksItsLength :
    idlePlain.rstN = true ∧ idlePlain.busy = false ∧
    ¬ (16 ≤ (8 : Word).toNat ∧ (8 : Word).toNat % 8 = 0 ∧ (8 : Word).toNat ≤ 8 * idlePlain.nMax) ∧
    ¬ (16 ≤ (17 : Word).toNat ∧ (17 : Word).toNat % 8 = 0 ∧ (17 : Word).toNat ≤ 8 * idlePlain.nMax) ∧
    ¬ (16 ≤ (0x208 : Word).toNat ∧ (0x208 : Word).toNat % 8 = 0 ∧ (0x208 : Word).toNat ≤ 8 * idlePlain.nMax) ∧
    (16 ≤ (16 : Word).toNat ∧ (16 : Word).toNat % 8 = 0 ∧ (16 : Word).toNat ≤ 8 * idlePlain.nMax) ∧
    (16 ≤ (0x200 : Word).toNat ∧ (0x200 : Word).toNat % 8 = 0 ∧ (0x200 : Word).toNat ≤ 8 * idlePlain.nMax) := by
  simp [idlePlain, State.reset, State.busy, Config.nMaxReference]

/-- Lengths that fail and lengths that pass, at the boundaries of each condition. -/
theorem witness_UnwrapChecksItsLength :
    idleWrapped.rstN = true ∧ idleWrapped.busy = false ∧
    ¬ (24 ≤ (16 : Word).toNat ∧ (16 : Word).toNat % 8 = 0 ∧ (16 : Word).toNat ≤ 8 * (idleWrapped.nMax + 1)) ∧
    ¬ (24 ≤ (25 : Word).toNat ∧ (25 : Word).toNat % 8 = 0 ∧ (25 : Word).toNat ≤ 8 * (idleWrapped.nMax + 1)) ∧
    ¬ (24 ≤ (0x210 : Word).toNat ∧ (0x210 : Word).toNat % 8 = 0 ∧ (0x210 : Word).toNat ≤ 8 * (idleWrapped.nMax + 1)) ∧
    (24 ≤ (24 : Word).toNat ∧ (24 : Word).toNat % 8 = 0 ∧ (24 : Word).toNat ≤ 8 * (idleWrapped.nMax + 1)) ∧
    (24 ≤ (0x208 : Word).toNat ∧ (0x208 : Word).toNat % 8 = 0 ∧ (0x208 : Word).toNat ≤ 8 * (idleWrapped.nMax + 1)) := by
  simp [idleWrapped, State.reset, State.busy, Config.nMaxReference]

theorem witness_LegalWrapStarts :
    idlePlain.rstN = true ∧ idlePlain.busy = false ∧ idlePlain.nMax ≤ 479 ∧ 16 ≤ idlePlain.len.toNat ∧
    idlePlain.len.toNat % 8 = 0 ∧ idlePlain.len.toNat ≤ 8 * idlePlain.nMax := by decide

theorem witness_LegalUnwrapStarts :
    idleWrapped.rstN = true ∧ idleWrapped.busy = false ∧ idleWrapped.nMax ≤ 479 ∧ 24 ≤ idleWrapped.len.toNat ∧
    idleWrapped.len.toNat % 8 = 0 ∧ idleWrapped.len.toNat ≤ 8 * (idleWrapped.nMax + 1) := by decide

/-- Every clause: the engine's turn on the agenda and with an empty one, CIPHER's answer, and any answer. -/
theorem witness_WrapRoundFollowsItsRule :
    let s : State := { wrapAccepted with agenda := [.engine] }
    let u : State := { wrapWaiting with agenda := [.cack] }
    let v : State := { wrapWaiting with agenda := [.cackWith 5] }
    (s.phase = .round ∧ s.op = .wrap ∧ 1 ≤ s.i.toNat ∧ s.i.toNat ≤ s.n.toNat ∧ s.n.toNat ≤ s.nMax ∧ s.creq = false) ∧
    (s.EngineMovesNext [] ∧ wrapAccepted.EngineMovesNext [] ∧ wrapAccepted.creq = false) ∧
    (u.creq = true ∧ u.cdir = .encrypt ∧ u.cin = u.regA ++ u.regR u.i.toNat ∧ u.agenda = .cack :: []) ∧
    (v.creq = true ∧ v.agenda = .cackWith 5 :: []) :=
  ⟨by decide, ⟨.inl rfl, .inr ⟨rfl, rfl⟩, rfl⟩, by decide, by decide⟩

/-- Every clause: the engine's turn on the agenda and with an empty one, CIPHER's answer, and any answer. -/
theorem witness_UnwrapRoundFollowsItsRule :
    let s : State := { unwrapAccepted with agenda := [.engine] }
    let u : State := { unwrapWaiting with agenda := [.cack] }
    let v : State := { unwrapWaiting with agenda := [.cackWith 5] }
    (s.phase = .round ∧ s.op = .unwrap ∧ 1 ≤ s.i.toNat ∧ s.i.toNat ≤ s.n.toNat ∧ s.n.toNat ≤ s.nMax ∧ s.creq = false) ∧
    (s.EngineMovesNext [] ∧ unwrapAccepted.EngineMovesNext [] ∧ unwrapAccepted.creq = false) ∧
    (u.creq = true ∧ u.cdir = .decrypt ∧ u.cin = ctr u.regA u.t ++ u.regR u.i.toNat ∧ u.agenda = .cack :: []) ∧
    (v.creq = true ∧ v.agenda = .cackWith 5 :: []) :=
  ⟨by decide, ⟨.inl rfl, .inr ⟨rfl, rfl⟩, rfl⟩, by decide, by decide⟩

/-- The same engine with the cipher about to answer. -/
def answering (s : State) : State := { s with agenda := [.cackWith 5] }

/-- Both clauses: a block before the last (i = 1 of n = 2), the last one of a round, and the last one of all. -/
theorem witness_WrapRoundsRunInOrder :
    (∀ s ∈ [wrapWaiting, wrapLastBlock, wrapLastRound],
      (answering s).Inv ∧ (answering s).op = .wrap ∧ (answering s).creq = true ∧
        (answering s).agenda = .cackWith 5 :: []) ∧
    wrapWaiting.i.toNat < wrapWaiting.n.toNat ∧
    (wrapLastBlock.i.toNat = wrapLastBlock.n.toNat ∧ wrapLastBlock.j.toNat ≠ 5) ∧
    (wrapLastRound.i.toNat = wrapLastRound.n.toNat ∧ wrapLastRound.j.toNat = 5) := by
  refine ⟨?_, by decide⟩
  simp only [List.forall_mem_cons, List.not_mem_nil, false_imp_iff, implies_true, and_true]
  exact ⟨⟨wrapWaiting_inv.withEnvironment _ none, rfl, rfl, rfl⟩, ⟨wrapLastBlock_inv.withEnvironment _ none, rfl, rfl, rfl⟩,
    wrapLastRound_inv.withEnvironment _ none, rfl, rfl, rfl⟩

/-- Both clauses: a block above the first, the first one of a round, and the last round of all. -/
theorem witness_UnwrapRoundsRunInOrder :
    (∀ s ∈ [unwrapWaiting, unwrapFirstBlock, unwrapLastRound],
      (answering s).Inv ∧ (answering s).op = .unwrap ∧ (answering s).creq = true ∧
        (answering s).agenda = .cackWith 5 :: []) ∧
    1 < unwrapWaiting.i.toNat ∧ (unwrapFirstBlock.i.toNat = 1 ∧ unwrapFirstBlock.j.toNat ≠ 0) ∧
    (unwrapLastRound.i.toNat = 1 ∧ unwrapLastRound.j.toNat = 0) := by
  refine ⟨?_, by decide⟩
  simp only [List.forall_mem_cons, List.not_mem_nil, false_imp_iff, implies_true, and_true]
  exact ⟨⟨unwrapWaiting_inv.withEnvironment _ none, rfl, rfl, rfl⟩,
    ⟨unwrapFirstBlock_inv.withEnvironment _ none, rfl, rfl, rfl⟩,
    unwrapLastRound_inv.withEnvironment _ none, rfl, rfl, rfl⟩

theorem witness_WrapFinalCompletes :
    let s : State := { wrapEnding with agenda := [.engine] }
    s.phase = .final ∧ s.op = .wrap ∧ s.n.toNat ≤ s.nMax ∧ s.EngineMovesNext [] ∧ wrapEnding.EngineMovesNext [] :=
  ⟨rfl, rfl, by decide, .inl rfl, .inr ⟨rfl, rfl⟩⟩

theorem witness_UnwrapFinalComparesAndZeroes :
    let s : State := { unwrapEnding 0xA6A6A6A6A6A6A6A6 with agenda := [.engine] }
    let u : State := { unwrapEnding 0xA6A6A6A6A6A6A6A7 with agenda := [.engine] }
    (s.phase = .final ∧ s.op = .unwrap ∧ s.n.toNat ≤ s.nMax ∧ s.EngineMovesNext [] ∧ ∀ k, k < 8 → s.bufByte k = 0xA6) ∧
    (u.phase = .final ∧ u.op = .unwrap ∧ u.n.toNat ≤ u.nMax ∧ u.EngineMovesNext [] ∧ ∃ k, k < 8 ∧ u.bufByte k ≠ 0xA6) :=
  ⟨⟨rfl, rfl, by decide, .inl rfl, by decide⟩, rfl, rfl, by decide, .inl rfl, 7, by decide, by decide⟩

theorem witness_AckWithoutRequestIsIgnored :
    { State.reset with agenda := [.cack] }.creq = false ∧ { State.reset with agenda := [.cackWith 5] }.creq = false := by decide

theorem witness_SilentCipherHangsTheEngine :
    let s : State := { unwrapWaiting with agenda := [.engine, .host (.cmd 1)] }
    s.rstN = true ∧ s.phase = .round ∧ s.creq = true ∧ ∀ e ∈ s.agenda, e = .engine ∨ ∃ h, e = .host h := by
  refine ⟨rfl, rfl, rfl, fun e he => ?_⟩
  rcases List.mem_cons.1 he with rfl | he
  · exact .inl rfl
  · exact .inr ⟨_, List.mem_singleton.1 he⟩

theorem witness_InterruptFollowsDoneAndEnable :
    let s : State := { State.reset with done := true, doneIE := true }
    (∃ t, exec (.wrStatus 2) s = .next t) ∧ (2 : Word).getLsbD 1 = true ∧
    (∃ t, exec (.wrIrqEn 0) s = .next t) ∧ (0 : Word).getLsbD 0 = false ∧
    (∃ t, exec (.wrCmd 1) { idlePlain with done := true, doneIE := true } = .next t ∧ t.busy = true) ∧
    (∃ t, exec .nop s = .next t) ∧
    (∃ t, step { wrapEnding with doneIE := true, agenda := [.engine] } = .next t) ∧
    (∃ t, step { s with agenda := [.rst false] } = .next t) :=
  ⟨⟨_, rfl⟩, by decide, ⟨_, rfl⟩, by decide, ⟨_, rfl, by decide⟩, ⟨_, rfl⟩, ⟨_, rfl⟩, _, rfl⟩

theorem witness_DoneRisesOnlyByCompletion :
    wrapEnding.done = false ∧ (∃ t, step wrapEnding = .next t ∧ t.done = true) ∧
    (∃ t, step (State.reset.withHostWord (.cmd 3)) = .next t ∧ t.done = true) := ⟨rfl, ⟨_, rfl, rfl⟩, _, rfl, rfl⟩

theorem witness_BusyEngineIsNotDisturbed : unwrapWaiting.rstN = true ∧ unwrapWaiting.busy = true := by decide

theorem witness_LenIsChangedByWritesAlone :
    ∃ t, step (State.reset.withHostWord (.bus (descriptor 2 true 0x010 8))) = .next t ∧ t.len ≠ State.reset.len :=
  ⟨_, rfl, by decide⟩

theorem witness_BufIsChangedByFewSteps :
    (∃ t, step (idlePlain.withHostWord (.bus (descriptor 2 true 0x108 0xFFFFFFFF))) = .next t ∧
      t.bufByte 8 ≠ idlePlain.bufByte 8) ∧
    (∃ t, step (idlePlain.withHostWord (.cmd 1)) = .next t ∧ t.bufByte 7 ≠ idlePlain.bufByte 7) ∧
    (∃ t, step { wrapWaiting with agenda := [.cackWith 5] } = .next t ∧ t.bufByte 15 ≠ wrapWaiting.bufByte 15) :=
  ⟨⟨_, rfl, by decide⟩, ⟨_, rfl, by decide⟩, _, rfl, by decide⟩

theorem witness_WrapIgnoresStaleA :
    idlePlain.rstN = true ∧ idlePlain.busy = false ∧ wrapLenOK idlePlain.nMax idlePlain.len = true := by decide

theorem witness_WrapTakesSixNRounds :
    let s : State := { wrapAccepted with agenda := commandMoves (List.replicate 12 5) }
    s.Inv ∧ s.op = .wrap ∧ s.phase = .round ∧ s.creq = false ∧ s.j = 0 ∧ s.i = 1 ∧
    (List.replicate 12 (5 : Block)).length = 6 * s.n.toNat ∧ s.agenda = commandMoves (List.replicate 12 5) ++ [] :=
  ⟨wrapAccepted_inv.withEnvironment _ none, rfl, rfl, rfl, rfl, rfl, by simp [wrapAccepted, State.reset], by simp⟩

theorem witness_UnwrapTakesSixNRounds :
    let s : State := { unwrapAccepted with agenda := commandMoves (List.replicate 12 5) }
    s.Inv ∧ s.op = .unwrap ∧ s.phase = .round ∧ s.creq = false ∧ s.j = 5 ∧ s.i = s.n ∧
    (List.replicate 12 (5 : Block)).length = 6 * s.n.toNat ∧ s.agenda = commandMoves (List.replicate 12 5) ++ [] :=
  ⟨unwrapAccepted_inv.withEnvironment _ none, rfl, rfl, rfl, rfl, rfl, by simp [unwrapAccepted, State.reset], by simp⟩

theorem witness_WrapComputesRfc3394 :
    idlePlain.Inv ∧ idlePlain.rstN = true ∧ idlePlain.busy = false ∧ wrapLenOK idlePlain.nMax idlePlain.len = true :=
  ⟨idlePlain_inv, by decide⟩

/-- An idle engine with a key that the SWAP mock unwraps, and LEN = 24 (95_test_vectors.md V12). -/
def idleSwapWrapped : State :=
  { State.reset with len := 24, buf := threeBlocks 0xA6A6A6A6A6A6A6A6 0x1111111111111119 0x2222222222222226 }

theorem idleSwapWrapped_inv : idleSwapWrapped.Inv := by constructor <;> decide

theorem witness_UnwrapComputesRfc3394_success :
    let s := idleSwapWrapped
    s.Inv ∧ (s.rstN = true ∧ s.busy = false ∧ unwrapLenOK s.nMax s.len = true) ∧
    (rfcUnwrap swapCipher.decrypt s.regA (s.blocks 1 (s.len.toNat / 8 - 1))).1 = 0xA6A6A6A6A6A6A6A6 :=
  ⟨idleSwapWrapped_inv, by decide, by decide +kernel⟩

theorem witness_UnwrapComputesRfc3394_failure :
    let s := idleWrapped
    s.Inv ∧ (s.rstN = true ∧ s.busy = false ∧ unwrapLenOK s.nMax s.len = true) ∧
    (rfcUnwrap swapCipher.decrypt s.regA (s.blocks 1 (s.len.toNat / 8 - 1))).1 ≠ 0xA6A6A6A6A6A6A6A6 :=
  ⟨idleWrapped_inv, by decide, by decide +kernel⟩

theorem witness_UnwrapUndoesWrap :
    (∀ x, identCipher.decrypt (identCipher.encrypt x) = x) ∧ idlePlain.Inv ∧ idlePlain.rstN = true ∧
    idlePlain.busy = false ∧ wrapLenOK idlePlain.nMax idlePlain.len = true :=
  ⟨fun _ => rfl, idlePlain_inv, by decide⟩

theorem witness_RunningCommandRevealsNoKeyData :
    SameButSecrets wrapAccepted { wrapAccepted with buf := [] } ∧ wrapAccepted.phase = .round ∧
    step wrapAccepted = .next wrapWaiting ∧ SameButSecrets wrapEnding { wrapEnding with buf := [], cin := 7 } ∧
    wrapEnding.phase = .final ∧ wrapEnding.op = .wrap :=
  ⟨rfl, rfl, rfl, rfl, rfl, rfl⟩

end Sys2Proof.Tests
end

section
/-! What a host transaction can do to the engine, said once for all instructions, and the equations of the agents' turns. -/

namespace Sys2Proof.Machine

/-- What a transaction of `i` can leave behind in `s`, before the bus slave's answer is put on the port. -/
inductive HostUpdate (i : Instr) (s : State) : State → Prop
  | unchanged : HostUpdate i s s
  | statusWritten (d : Word) (hi : i = .wrStatus d) : HostUpdate i s (s.writeStatus d)
  | irqEnWritten (d : Word) (hi : i = .wrIrqEn d) : HostUpdate i s (s.writeIrqEn d)
  | lenWritten (d : Word) (hi : i = .wrLen d) (idle : s.busy = false) : HostUpdate i s (s.writeLen d)
  | bufWritten (off : Offset) (d : Word) (hi : i = .wrBuf off d) (idle : s.busy = false)
      (inBuf : isBufOffset s.nMax off = true) : HostUpdate i s (s.storeWord (bufIndex off) d)
  | wrapStarted (idle : s.busy = false) (lenOK : wrapLenOK s.nMax s.len = true) :
      HostUpdate i s (startWrap s.clearStatus)
  | unwrapStarted (idle : s.busy = false) (lenOK : unwrapLenOK s.nMax s.len = true) :
      HostUpdate i s (startUnwrap s.clearStatus)
  | commandFailed (e : ErrCode) (idle : s.busy = false) (code : e = .invalidLength ∨ e = .illegalCommand) :
      HostUpdate i s (s.clearStatus.complete e 0)

section
variable {i : Instr} {s : State}

theorem acceptWrap_update (idle : s.busy = false) : HostUpdate i s (acceptWrap s) := by
  obtain ⟨hok, he⟩ | ⟨-, he⟩ := acceptWrap_cases s <;> rw [he]
  · exact .wrapStarted idle hok
  · exact .commandFailed _ idle (.inl rfl)

theorem acceptUnwrap_update (idle : s.busy = false) : HostUpdate i s (acceptUnwrap s) := by
  obtain ⟨hok, he⟩ | ⟨-, he⟩ := acceptUnwrap_cases s <;> rw [he]
  · exact .unwrapStarted idle hok
  · exact .commandFailed _ idle (.inl rfl)

theorem accept_update (w : Word) (idle : s.busy = false) : HostUpdate i s (accept w s) := by
  obtain ⟨-, he⟩ | ⟨-, he⟩ | ⟨-, he⟩ | ⟨-, -, -, he⟩ := accept_cases w s <;> rw [he]
  · exact .unchanged
  · exact acceptWrap_update idle
  · exact acceptUnwrap_update idle
  · exact .commandFailed _ idle (.inr rfl)

/-- A write refused while busy (70_reset_and_hazards.md R111) is an update where its effect on an idle engine is one. -/
theorem writeIdle_update {f : State → State} (h : s.busy = false → HostUpdate i s (f s)) :
    ∃ u d r, HostUpdate i s u ∧ writeIdle f s = u.respond d r := by
  cases hb : s.busy with
  | true => exact ⟨s, _, _, .unchanged, writeIdle_busy hb f⟩
  | false => exact ⟨f s, _, _, h hb, writeIdle_idle hb f⟩

theorem readBuf_eq_respond (off : Offset) (s : State) : ∃ d r, readBuf off s = s.respond d r := by
  unfold readBuf
  split
  · split <;> exact ⟨_, _, rfl⟩
  · exact ⟨_, _, rfl⟩

theorem writeBuf_update (off : Offset) (d : Word) (s : State) :
    ∃ u d' r, HostUpdate (.wrBuf off d) s u ∧ writeBuf off d s = u.respond d' r := by
  unfold writeBuf
  split
  · exact writeIdle_update fun idle => .bufWritten off d rfl idle ‹_›
  · exact ⟨s, _, _, .unchanged, rfl⟩

theorem refuse_eq_respond (write : Bool) (s : State) : ∃ d r, refuse write s = s.respond d r := by
  cases write <;> exact ⟨_, _, rfl⟩

/-- Every instruction's effect is an update and an answer. -/
theorem effectOf_update (i : Instr) (s : State) :
    ∃ u d r, HostUpdate i s u ∧ effectOf i s = u.respond d r := by
  cases i with
  | nop => exact writeIdle_update fun _ => .unchanged
  | wrap => exact writeIdle_update acceptWrap_update
  | unwrap => exact writeIdle_update acceptUnwrap_update
  | illegal opc mbz => exact writeIdle_update (accept_update _)
  | wrCmd w => exact writeIdle_update (accept_update w)
  | wrLen d => exact writeIdle_update (.lenWritten d rfl)
  | wrStatus d => exact ⟨_, _, _, .statusWritten d rfl, rfl⟩
  | wrIrqEn d => exact ⟨_, _, _, .irqEnWritten d rfl, rfl⟩
  | wrBuf off d => exact writeBuf_update off d s
  | rdBuf off =>
    obtain ⟨d, r, he⟩ := readBuf_eq_respond off s
    exact ⟨s, d, r, .unchanged, he⟩
  | refused size write off data =>
    obtain ⟨d, r, he⟩ := refuse_eq_respond write s
    exact ⟨s, d, r, .unchanged, he⟩
  | _ => exact ⟨s, _, _, .unchanged, rfl⟩

/-- What a transaction that is answered can do: an update, with its answer, out of reset. -/
theorem exec_cases {t : State} (h : exec i s = .next t) :
    s.rstN = true ∧ ∃ u d r, HostUpdate i s u ∧ t = u.respond d r := by
  rw [exec_eq_transact] at h
  obtain ⟨hr, rfl⟩ := transact_cases h
  exact ⟨hr, effectOf_update i s⟩

end

section
variable {s : State}

theorem State.busy_eq_true_iff : s.busy = true ↔ s.phase ≠ .idle := by simp [State.busy]

theorem State.busy_eq_false_iff : s.busy = false ↔ s.phase = .idle := by simp [State.busy]

/-- What the sequencer's test of a block says (10_state.md R27). -/
theorem State.blockOK_iff :
    s.blockOK = true ↔ 1 ≤ s.i.toNat ∧ s.i.toNat ≤ s.n.toNat ∧ s.n.toNat ≤ s.nMax := by
  simp [State.blockOK, and_assoc]

/-- A step is the turn of the event at the head of the agenda, or of the engine where there is none. -/
theorem step_eq_turn (s : State) :
    step s = turn (s.agenda.headD .engine) (s.beginTurn s.agenda.tail) := by
  unfold step
  cases s.agenda <;> rfl

theorem engineTurn_idle (hp : s.phase = .idle) : engineTurn s = .next s := by
  simp [engineTurn, hp]

theorem engineTurn_waits (hp : s.phase = .round) (hc : s.creq = true) : engineTurn s = .next s := by
  simp [engineTurn, hp, hc]

theorem engineTurn_issues (hp : s.phase = .round) (hc : s.creq = false) (hb : s.blockOK = true) :
    engineTurn s = .next (issue s) := by
  simp [engineTurn, hp, hc, hb]

theorem engineTurn_completes (hp : s.phase = .final) (hn : s.n.toNat ≤ s.nMax) :
    engineTurn s = .next (finalStep s) := by
  simp [engineTurn, hp, hn]

theorem cipherTurn_ignored (b : Block) (hc : s.creq = false) : cipherTurn b s = .next s := by
  simp [cipherTurn, hc]

theorem cipherTurn_completes_round (b : Block) (hc : s.creq = true) (hp : s.phase = .round)
    (hb : s.blockOK = true) : cipherTurn b s = .next (roundWith b s) := by
  simp [cipherTurn, hc, hp, hb]

theorem roundWith_wrap (b : Block) (hop : s.op = .wrap) : roundWith b s = wrapRound b (latch b s) := by
  simp [roundWith, hop]

theorem roundWith_unwrap (b : Block) (hop : s.op = .unwrap) : roundWith b s = unwrapRound b (latch b s) := by
  simp [roundWith, hop]

/-- What a round of either command changes: the answer is latched, A and R[i] take values, and the sequencer moves on. -/
theorem roundWith_eq (b : Block) (s : State) :
    ∃ a r t i j p, roundWith b s = { storeRound a r (latch b s) with t := t, i := i, j := j, phase := p } := by
  cases hop : s.op with
  | wrap => rw [roundWith_wrap b hop]; exact ⟨_, _, _, _, _, _, wrapRound_eq b (latch b s)⟩
  | unwrap => rw [roundWith_unwrap b hop]; exact ⟨_, _, _, _, _, _, unwrapRound_eq b (latch b s)⟩

/-- What a round leaves unchanged: every register but the position and the phase, and the latches of the request. -/
theorem roundWith_frame (b : Block) (s : State) :
    ∃ m t i j p, roundWith b s = { s with buf := m, t := t, i := i, j := j, phase := p, creq := false, cout := b } := by
  obtain ⟨a, r, t, i, j, p, he⟩ := roundWith_eq b s
  exact ⟨(storeRound a r (latch b s)).buf, t, i, j, p, by rw [he]; simp⟩

/-- The final step has three outcomes (43_wrap.md R85, 44_unwrap.md R92, R93). -/
theorem finalStep_cases (s : State) :
    (s.op = .wrap ∧ finalStep s = s.complete .none (s.lenLatched + 8)) ∨
      (s.op = .unwrap ∧ integrityOK s = true ∧ finalStep s = s.complete .none (s.lenLatched - 8)) ∨
      (s.op = .unwrap ∧ integrityOK s = false ∧
        finalStep s = (s.zeroBuf (8 * (s.n.toNat + 1))).complete .integrityFailure 0) := by
  unfold finalStep
  split
  · exact .inl ⟨‹_›, rfl⟩
  · cases hI : integrityOK s with
    | true => exact .inr (.inl ⟨‹_›, rfl, by simp [unwrapFinal, hI, unwrapSuccess]⟩)
    | false => exact .inr (.inr ⟨‹_›, rfl, by simp [unwrapFinal, hI, unwrapFail]⟩)

end

end Sys2Proof.Machine
end

section
/-! BUF's cells in canonical form and inside BUF: kept by every step (O8), and the bytes a step can change (O52). -/

namespace Sys2Proof.Machine

/-- The cells are in canonical form and inside the BUF of an engine of capacity `nMax` (10_state.md R11). -/
def Memory.Inside (nMax : Nat) (m : List Host.Cell) : Prop :=
  Memory.wf m ∧ ∀ c ∈ m, c.1 < bufSize nMax

/-- No byte written since reset. -/
theorem Memory.Inside.nil (nMax : Nat) : Memory.Inside nMax [] := ⟨List.Pairwise.nil, by simp⟩

theorem Memory.Inside.setBytes {nMax : Nat} {m : List Host.Cell} (h : Memory.Inside nMax m) {a : Nat} {bs : List Byte}
    (hin : a + bs.length ≤ bufSize nMax) : Memory.Inside nMax (Memory.setBytes m a bs) := by
  refine ⟨Memory.wf_setBytes bs a h.1, fun c hc => ?_⟩
  rcases Memory.mem_setBytes bs hc with ⟨-, hlt⟩ | hold
  · omega
  · exact h.2 c hold

/-- A value of eight bytes at A or at a block of BUF (10_state.md R11). -/
theorem Memory.Inside.setHalf {nMax : Nat} {m : List Host.Cell} (h : Memory.Inside nMax m) {a : Nat}
    (ha : a ≤ 8 * nMax) (x : Half) : Memory.Inside nMax (Memory.setBytes m a (halfBytes x)) :=
  h.setBytes (by rw [halfBytes_length, bufSize]; omega)

/-- The bytes of a BUF word lie inside BUF (30_encoding.md R48). -/
theorem bufIndex_add_four_le {nMax : Nat} {off : Offset} (h : isBufOffset nMax off = true) :
    bufIndex off + 4 ≤ bufSize nMax := by
  obtain ⟨-, hlo, hhi⟩ := (isBufOffset_iff nMax off).1 h
  unfold bufIndex
  omega

section
variable {s t : State}

theorem HostUpdate.keepsMemory {i : Instr} {u : State} (hu : HostUpdate i s u) (h : Memory.Inside s.nMax s.buf) :
    Memory.Inside u.nMax u.buf := by
  cases hu with
  | unchanged | statusWritten | irqEnWritten | lenWritten | unwrapStarted | commandFailed => exact h
  | bufWritten off d _ _ inBuf => exact h.setBytes (bufIndex_add_four_le inBuf)
  | wrapStarted => exact h.setHalf (Nat.zero_le _) iv

theorem roundWith_keepsMemory (b : Block) (hb : s.blockOK = true) (h : Memory.Inside s.nMax s.buf) :
    Memory.Inside (roundWith b s).nMax (roundWith b s).buf := by
  obtain ⟨-, hin, hn⟩ := State.blockOK_iff.1 hb
  obtain ⟨a, r, t, i, j, p, he⟩ := roundWith_eq b s
  simp only [he, storeRound_nMax, storeRound_buf, latch_nMax, latch_buf, latch_i]
  exact (h.setHalf (Nat.zero_le _) a).setHalf (by omega) r

/-- The bytes that a failing UNWRAP zeroes lie inside BUF (44_unwrap.md R93). -/
theorem zeroes_inside {n nMax : Nat} (hn : n ≤ nMax) :
    0 + (List.replicate (8 * (n + 1)) (0 : Byte)).length ≤ bufSize nMax := by
  rw [List.length_replicate, bufSize]
  omega

theorem finalStep_keepsMemory (hn : s.n.toNat ≤ s.nMax) (h : Memory.Inside s.nMax s.buf) :
    Memory.Inside (finalStep s).nMax (finalStep s).buf := by
  obtain ⟨-, he⟩ | ⟨-, -, he⟩ | ⟨-, -, he⟩ := finalStep_cases s <;>
    simp only [he, State.complete_nMax, State.complete_buf, State.zeroBuf_nMax]
  · exact h
  · exact h
  · exact h.setBytes (zeroes_inside hn)

theorem engineTurn_keepsMemory (ht : engineTurn s = .next t) (h : Memory.Inside s.nMax s.buf) :
    Memory.Inside t.nMax t.buf := by
  obtain ⟨-, rfl⟩ | ⟨-, -, rfl⟩ | ⟨-, -, -, rfl⟩ | ⟨-, hn, rfl⟩ := engineTurn_cases ht
  · exact h
  · exact h
  · exact h
  · exact finalStep_keepsMemory hn h

theorem cipherTurn_keepsMemory {b : Block} (ht : cipherTurn b s = .next t) (h : Memory.Inside s.nMax s.buf) :
    Memory.Inside t.nMax t.buf := by
  obtain ⟨-, rfl⟩ | ⟨-, -, hb, rfl⟩ := cipherTurn_cases ht
  · exact h
  · exact roundWith_keepsMemory b hb h

theorem rstTurn_keepsMemory {level : Bool} (ht : rstTurn level s = .next t) (h : Memory.Inside s.nMax s.buf) :
    Memory.Inside t.nMax t.buf := by
  obtain ⟨-, -, rfl⟩ | ⟨-, rfl⟩ := rstTurn_cases ht
  · exact h
  · exact .nil s.nMax

end

/-- Settles O8, by the kinds of step: each write of BUF lies inside BUF by the check of its own turn. -/
theorem everyStepKeepsTheMemoryForm : Obligations.EveryStepKeepsTheMemoryForm := by
  intro s t hstep hwf hrange
  have h : Memory.Inside s.nMax s.buf := ⟨hwf, hrange⟩
  obtain ⟨_, _, -, ht⟩ | ⟨_, -, ht⟩ | ⟨_, _, _, -, -, ht⟩ | ⟨_, _, -, ht⟩ := step_cases hstep
  · obtain ⟨-, u, d, r, hu, rfl⟩ := exec_cases ht
    exact hu.keepsMemory h
  · exact engineTurn_keepsMemory ht h
  · exact cipherTurn_keepsMemory ht h
  · exact rstTurn_keepsMemory ht h

section
variable {s t : State} {k : Nat}

/-- A transaction changes a byte only as WR BUF of its word, or as the start of WRAP in A (43_wrap.md R86). -/
theorem HostUpdate.bufByte_changed {i : Instr} {u : State} (hu : HostUpdate i s u) (hk : u.bufByte k ≠ s.bufByte k) :
    s.busy = false ∧
      ((∃ off d, i = .wrBuf off d ∧ bufIndex off ≤ k ∧ k < bufIndex off + 4) ∨
        (u.busy = true ∧ u.op = .wrap ∧ k < 8)) := by
  cases hu with
  | unchanged | statusWritten | irqEnWritten | lenWritten | unwrapStarted | commandFailed => exact absurd rfl hk
  | bufWritten off d hi idle =>
    exact ⟨idle, .inl ⟨off, d, hi, not_not.1 fun hout => hk (State.bufByte_storeBytes_frame s hout)⟩⟩
  | wrapStarted idle =>
    have hlt : 0 ≤ k ∧ k < 0 + 8 := not_not.1 fun hout => hk (State.bufByte_storeBytes_frame s hout)
    exact ⟨idle, .inr ⟨rfl, rfl, by omega⟩⟩

/-- The bytes of BUF are read from its cells and its draws alone. -/
theorem State.bufByte_congr {u : State} (hcells : u.buf = s.buf) (hdraws : u.bufHistory = s.bufHistory) (k : Nat) :
    u.bufByte k = s.bufByte k := by
  rw [State.bufByte, State.bufByte, State.unwrittenByte, State.unwrittenByte, hcells, hdraws]

theorem bufByte_roundWith_frame (b : Block) (hb : s.blockOK = true) (hk : 8 * (s.n.toNat + 1) ≤ k) :
    (roundWith b s).bufByte k = s.bufByte k := by
  obtain ⟨-, hin, -⟩ := State.blockOK_iff.1 hb
  obtain ⟨a, r, t, i, j, p, he⟩ := roundWith_eq b s
  calc
    (roundWith b s).bufByte k = (storeRound a r (latch b s)).bufByte k :=
      State.bufByte_congr (by rw [he]) (by rw [he]) k
    _ = (latch b s).bufByte k := bufByte_storeRound_frame (latch b s) a r (by omega) (by simp only [latch_i]; omega)
    _ = s.bufByte k := bufByte_latch s b k

theorem bufByte_finalStep_frame (hk : 8 * (s.n.toNat + 1) ≤ k) : (finalStep s).bufByte k = s.bufByte k := by
  obtain ⟨-, he⟩ | ⟨-, -, he⟩ | ⟨-, -, he⟩ := finalStep_cases s <;> rw [he]
  · rfl
  · rfl
  · exact State.bufByte_storeBytes_frame s (by rw [List.length_replicate]; omega)

theorem engineTurn_bufByte_changed (ht : engineTurn s = .next t) (hk : t.bufByte k ≠ s.bufByte k) :
    s.busy = true ∧ k < 8 * (s.n.toNat + 1) := by
  obtain ⟨-, rfl⟩ | ⟨-, -, rfl⟩ | ⟨-, -, -, rfl⟩ | ⟨hp, -, rfl⟩ := engineTurn_cases ht
  · exact absurd rfl hk
  · exact absurd rfl hk
  · exact absurd rfl hk
  · exact ⟨by simp [State.busy, hp], not_le.1 fun hle => hk (bufByte_finalStep_frame hle)⟩

theorem cipherTurn_bufByte_changed {b : Block} (ht : cipherTurn b s = .next t) (hk : t.bufByte k ≠ s.bufByte k) :
    s.busy = true ∧ k < 8 * (s.n.toNat + 1) := by
  obtain ⟨-, rfl⟩ | ⟨-, hp, hb, rfl⟩ := cipherTurn_cases ht
  · exact absurd rfl hk
  · exact ⟨by simp [State.busy, hp], not_le.1 fun hle => hk (bufByte_roundWith_frame b hb hle)⟩

end

/-- Settles O52, by the kinds of step: each writes BUF only through a store whose frame is known. -/
theorem bufIsChangedByFewSteps : Obligations.BufIsChangedByFewSteps := by
  intro s t k hstep hk
  obtain ⟨w, rest, ha, ht⟩ | ⟨rest, ha, ht⟩ | ⟨b, e, rest, ha, he, ht⟩ | ⟨level, rest, ha, -⟩ :=
    step_cases hstep
  · obtain ⟨-, u, d, r, hu, rfl⟩ := exec_cases ht
    obtain ⟨idle, ⟨off, data, hi, hlo, hhi⟩ | ⟨hbusy, hop, hlt⟩⟩ := hu.bufByte_changed hk
    · exact .inl ⟨w, rest, off, data, ha, hi, idle, hlo, hhi⟩
    · exact .inr (.inl ⟨w, rest, ha, idle, hbusy, hop, hlt⟩)
  · obtain ⟨hbusy, hlt⟩ := engineTurn_bufByte_changed ht hk
    refine .inr (.inr (.inl ⟨hbusy, hlt, fun w more hw => ?_⟩))
    obtain ⟨hnil, -⟩ | hcons := ha <;> simp_all
  · obtain ⟨hbusy, hlt⟩ := cipherTurn_bufByte_changed ht hk
    refine .inr (.inr (.inl ⟨hbusy, hlt, fun w more hw => ?_⟩))
    obtain rfl | rfl := he <;> simp_all
  · exact .inr (.inr (.inr ⟨level, rest, ha⟩))

end Sys2Proof.Machine
end

section
/-! The invariant of 10_state.md R27: how the sequencer's registers move, one lemma per update, and the step (O5). -/

namespace Sys2Proof.Machine

/-- What holds of the registers of a running command that no round changes (10_state.md R27, 20_memory.md R40). -/
structure State.CommandOK (s : State) : Prop where
  status : s.done = false ∧ s.err = .none ∧ s.outlen = 0
  blocks : 2 ≤ s.n.toNat ∧ s.n.toNat ≤ s.nMax
  heldLen : s.lenLatched = s.len
  wrapLen : s.op = .wrap → s.lenLatched.toNat = 8 * s.n.toNat
  unwrapLen : s.op = .unwrap → s.lenLatched.toNat = 8 * (s.n.toNat + 1)

/-- The ranges of the round and block index in phase ROUND (10_state.md R27). -/
def State.InRound (s : State) : Prop :=
  s.phase = .round ∧ s.j.toNat ≤ 5 ∧ 1 ≤ s.i.toNat ∧ s.i.toNat ≤ s.n.toNat

/-- Where the sequencer of a running command stands, and what its round counter holds there (10_state.md R27). -/
inductive State.PositionOK (s : State) : Prop
  | wrapRound (hop : s.op = .wrap) (h : s.InRound) (ht : s.t.toNat + 1 = s.n.toNat * s.j.toNat + s.i.toNat)
  | unwrapRound (hop : s.op = .unwrap) (h : s.InRound) (ht : s.t.toNat = s.n.toNat * s.j.toNat + s.i.toNat)
  | wrapFinal (hop : s.op = .wrap) (hp : s.phase = .final) (ht : s.t.toNat = 6 * s.n.toNat)
  | unwrapFinal (hop : s.op = .unwrap) (hp : s.phase = .final) (ht : s.t.toNat = 0)

/-! ## The sequencer's moves -/

section
variable {s : State}

/-- WRAP goes on to the next block (43_wrap.md R83). -/
theorem advanceWrap_nextBlock (hi : s.i.toNat < s.n.toNat) (hj : s.j.toNat ≤ 5) :
    advanceWrap s = { s with i := s.i + 1 } := by
  have hnext : nextBlockWrap s = { s with i := s.i + 1 } := if_pos hi
  have hj6 : s.j ≠ 6 := by bv_omega
  rw [advanceWrap, hnext, if_neg hj6]

/-- WRAP goes on to the next round (43_wrap.md R83). -/
theorem advanceWrap_nextRound (hi : ¬ s.i.toNat < s.n.toNat) (hj : s.j.toNat < 5) :
    advanceWrap s = { s with i := 1, j := s.j + 1 } := by
  have hnext : nextBlockWrap s = { s with i := 1, j := s.j + 1 } := if_neg hi
  have hj6 : s.j + 1 ≠ 6 := by bv_omega
  rw [advanceWrap, hnext, if_neg hj6]

/-- WRAP's last round ends (43_wrap.md R83). -/
theorem advanceWrap_last (hi : ¬ s.i.toNat < s.n.toNat) (hj : s.j.toNat = 5) :
    advanceWrap s = { s with i := 1, j := s.j + 1, phase := .final } := by
  have hnext : nextBlockWrap s = { s with i := 1, j := s.j + 1 } := if_neg hi
  have hj6 : s.j + 1 = 6 := by bv_omega
  rw [advanceWrap, hnext, if_pos hj6]

/-- UNWRAP goes on to the block below (44_unwrap.md R90). -/
theorem advanceUnwrap_nextBlock (hi : 1 < s.i.toNat) (hj : s.j.toNat ≤ 5) :
    advanceUnwrap s = { s with i := s.i - 1 } := by
  have hnext : nextBlockUnwrap s = { s with i := s.i - 1 } := if_pos hi
  have hj7 : s.j ≠ 7 := by bv_omega
  rw [advanceUnwrap, hnext, if_neg hj7]

/-- UNWRAP goes on to the round below (44_unwrap.md R90). -/
theorem advanceUnwrap_nextRound (hi : ¬ 1 < s.i.toNat) (hj0 : 0 < s.j.toNat) :
    advanceUnwrap s = { s with i := s.n, j := s.j - 1 } := by
  have hnext : nextBlockUnwrap s = { s with i := s.n, j := s.j - 1 } := if_neg hi
  have hj7 : s.j - 1 ≠ 7 := by bv_omega
  rw [advanceUnwrap, hnext, if_neg hj7]

/-- UNWRAP's last round ends; j = 7 stands for −1 (44_unwrap.md R90, 10_state.md R18). -/
theorem advanceUnwrap_last (hi : ¬ 1 < s.i.toNat) (hj : s.j.toNat = 0) :
    advanceUnwrap s = { s with i := s.n, j := s.j - 1, phase := .final } := by
  have hnext : nextBlockUnwrap s = { s with i := s.n, j := s.j - 1 } := if_neg hi
  have hj7 : s.j - 1 = 7 := by bv_omega
  rw [advanceUnwrap, hnext, if_pos hj7]

/-- WRAP's `Advance` after the counter went up (43_wrap.md R83). -/
theorem advanceWrap_position (hop : s.op = .wrap) (h : s.InRound) (ht : s.t.toNat = s.n.toNat * s.j.toNat + s.i.toNat) :
    (advanceWrap s).PositionOK := by
  obtain ⟨hp, hj, hi1, hin⟩ := h
  by_cases hi : s.i.toNat < s.n.toNat
  · have hinc : (s.i + 1).toNat = s.i.toNat + 1 := by bv_omega
    rw [advanceWrap_nextBlock hi hj]
    exact .wrapRound hop ⟨hp, hj, by simp only [hinc]; omega, by simp only [hinc]; omega⟩ (by simp only [hinc]; omega)
  · have hieq : s.i.toNat = s.n.toNat := by omega
    have hinc : (s.j + 1).toNat = s.j.toNat + 1 := by bv_omega
    by_cases hj5 : s.j.toNat = 5
    · rw [advanceWrap_last hi hj5]
      rw [hj5] at ht
      exact .wrapFinal hop rfl (by simp only; omega)
    · rw [advanceWrap_nextRound hi (by omega)]
      have hone : (1 : BitVec 9).toNat = 1 := rfl
      exact .wrapRound hop ⟨hp, by simp only [hinc]; omega, le_of_eq hone.symm, by simp only [hone]; omega⟩
        (by simp only [hinc, hone, Nat.mul_succ]; omega)

/-- UNWRAP's `Advance` after the counter went down (44_unwrap.md R90). -/
theorem advanceUnwrap_position (hop : s.op = .unwrap) (h : s.InRound)
    (ht : s.t.toNat + 1 = s.n.toNat * s.j.toNat + s.i.toNat) : (advanceUnwrap s).PositionOK := by
  obtain ⟨hp, hj, hi1, hin⟩ := h
  by_cases hi : 1 < s.i.toNat
  · have hdec : (s.i - 1).toNat = s.i.toNat - 1 := by bv_omega
    rw [advanceUnwrap_nextBlock hi hj]
    exact .unwrapRound hop ⟨hp, hj, by simp only [hdec]; omega, by simp only [hdec]; omega⟩ (by simp only [hdec]; omega)
  · by_cases hj0 : s.j.toNat = 0
    · rw [advanceUnwrap_last hi hj0]
      rw [hj0] at ht
      exact .unwrapFinal hop rfl (by simp only; omega)
    · obtain ⟨j', hj'⟩ : ∃ j', s.j.toNat = j' + 1 := ⟨s.j.toNat - 1, by omega⟩
      have hdec : (s.j - 1).toNat = j' := by bv_omega
      rw [hj', Nat.mul_succ] at ht
      rw [advanceUnwrap_nextRound hi (by omega)]
      exact .unwrapRound hop ⟨hp, by simp only [hdec]; omega, by simp only; omega, le_refl _⟩
        (by simp only [hdec]; omega)

end

/-! ## Taking the invariant apart and putting it together -/

section
variable {s : State}

theorem State.Inv.memory (h : s.Inv) : Memory.Inside s.nMax s.buf := ⟨h.memForm, h.memRange⟩

theorem State.Inv.command (h : s.Inv) (hb : s.busy = true) : s.CommandOK :=
  ⟨h.busyStatus hb, h.busyBlocks hb, h.busyLen hb, h.wrapLen hb, h.unwrapLen hb⟩

theorem State.Inv.inRound (h : s.Inv) (hp : s.phase = .round) : s.InRound := ⟨hp, h.roundRange hp⟩

/-- Nothing runs in reset. -/
theorem State.Inv.rstN_of_busy (h : s.Inv) (hb : s.busy = true) : s.rstN = true := by
  by_contra hr
  exact State.busy_eq_true_iff.1 hb (h.inReset (eq_false_of_ne_true hr)).1

/-- A request is outstanding in phase ROUND alone. -/
theorem State.Inv.creq_of_phase (h : s.Inv) (hp : s.phase ≠ .round) : s.creq = false := by
  by_contra hc
  exact hp (h.request (eq_true_of_ne_false hc)).1

theorem State.Inv.creq_of_idle (h : s.Inv) (idle : s.busy = false) : s.creq = false :=
  h.creq_of_phase (by simp [State.busy_eq_false_iff.1 idle])

/-- The invariant of an idle engine. -/
theorem State.Inv.of_idle (capacity : Config.LegalNMax s.nMax) (memory : Memory.Inside s.nMax s.buf)
    (hp : s.phase = .idle) (hc : s.creq = false) (failureLen : s.err ≠ .none → s.outlen = 0)
    (inReset : s.rstN = false → s.done = false) : s.Inv := by
  have hb : s.busy = false := State.busy_eq_false_iff.2 hp
  exact
    { capacity, memForm := memory.1, memRange := memory.2, failureLen
      inReset := fun hr => ⟨hp, inReset hr⟩
      busyStatus := by simp [hb], busyBlocks := by simp [hb], busyLen := by simp [hb]
      wrapLen := by simp [hb], unwrapLen := by simp [hb]
      roundRange := by simp [hp], roundWrap := by simp [hp], roundUnwrap := by simp [hp]
      finalWrap := by simp [hp], finalUnwrap := by simp [hp]
      request := by simp [hc] }

/-- The invariant of a busy engine with no request outstanding. -/
theorem State.Inv.of_command (capacity : Config.LegalNMax s.nMax) (memory : Memory.Inside s.nMax s.buf)
    (hr : s.rstN = true) (hc : s.creq = false) (command : s.CommandOK) (position : s.PositionOK) : s.Inv :=
  { capacity, memForm := memory.1, memRange := memory.2
    busyStatus := fun _ => command.status
    busyBlocks := fun _ => command.blocks
    busyLen := fun _ => command.heldLen
    wrapLen := fun _ => command.wrapLen
    unwrapLen := fun _ => command.unwrapLen
    roundRange := fun hp => by
      cases position with
      | wrapRound _ h | unwrapRound _ h => exact h.2
      | wrapFinal _ hf | unwrapFinal _ hf => simp [hf] at hp
    roundWrap := fun hp hop => by cases position <;> simp_all
    roundUnwrap := fun hp hop => by cases position <;> simp_all
    finalWrap := fun hp hop => by cases position <;> simp_all [State.InRound]
    finalUnwrap := fun hp hop => by cases position <;> simp_all [State.InRound]
    request := by simp [hc]
    failureLen := fun _ => command.status.2.2
    inReset := by simp [hr] }

/-! ## The invariant under each update -/

/-- The answer on the bus is no part of the invariant. -/
theorem State.Inv.respond (h : s.Inv) (d : Option Word) (r : Resp) : (s.respond d r).Inv :=
  h.withEnvironment s.agenda (some ⟨d, r⟩)

theorem State.Inv.beginTurn (h : s.Inv) (rest : List Event) : (s.beginTurn rest).Inv := h.withEnvironment rest none

/-- A store inside BUF while no request is outstanding. -/
theorem State.Inv.storeBytes (h : s.Inv) (hc : s.creq = false) {a : Nat} {bs : List Byte}
    (hin : a + bs.length ≤ bufSize s.nMax) : (s.storeBytes a bs).Inv :=
  have hm := h.memory.setBytes hin
  { h with memForm := hm.1, memRange := hm.2, request := by simp [hc] }

theorem State.Inv.writeIrqEn (h : s.Inv) (d : Word) : (s.writeIrqEn d).Inv := { h with }

theorem State.Inv.writeStatus (h : s.Inv) (d : Word) : (s.writeStatus d).Inv :=
  { h with
    busyStatus := fun hb => ⟨by simp [(h.busyStatus hb).1], (h.busyStatus hb).2⟩
    inReset := fun hr => ⟨(h.inReset hr).1, by simp [(h.inReset hr).2]⟩ }

theorem State.Inv.writeLen (h : s.Inv) (idle : s.busy = false) (d : Word) : (s.writeLen d).Inv :=
  { h with busyLen := fun hb => absurd hb (by simp [idle]) }

/-- The end of a command, or of an attempt to start one, with no length after a failure (60_exceptions.md R96). -/
theorem State.Inv.complete (h : s.Inv) (hr : s.rstN = true) (hc : s.creq = false) {e : ErrCode} {w : Word}
    (hw : e ≠ .none → w = 0) : (s.complete e w).Inv :=
  .of_idle h.capacity h.memory rfl hc hw (by simp [hr])

theorem State.Inv.clearStatus (h : s.Inv) : s.clearStatus.Inv :=
  { h with
    busyStatus := fun _ => ⟨rfl, rfl, rfl⟩
    failureLen := fun _ => rfl
    inReset := fun hr => ⟨(h.inReset hr).1, rfl⟩ }

theorem wrapBlocks_toNat {nMax : Nat} {len : Word} (hcap : Config.LegalNMax nMax) (hok : wrapLenOK nMax len = true) :
    2 ≤ (wrapBlocks len).toNat ∧ (wrapBlocks len).toNat ≤ nMax ∧ len.toNat = 8 * (wrapBlocks len).toNat := by
  simp only [wrapLenOK, Bool.and_eq_true, decide_eq_true_eq] at hok
  rw [wrapBlocks, BitVec.toNat_ofNat, Nat.mod_eq_of_lt (by omega)]
  omega

theorem unwrapBlocks_toNat {nMax : Nat} {len : Word} (hcap : Config.LegalNMax nMax)
    (hok : unwrapLenOK nMax len = true) :
    2 ≤ (unwrapBlocks len).toNat ∧ (unwrapBlocks len).toNat ≤ nMax ∧
      len.toNat = 8 * ((unwrapBlocks len).toNat + 1) := by
  simp only [unwrapLenOK, Bool.and_eq_true, decide_eq_true_eq] at hok
  rw [unwrapBlocks, BitVec.toNat_ofNat, Nat.mod_eq_of_lt (by omega)]
  omega

theorem roundCount_toNat (n : BitVec 9) : (roundCount n).toNat = 6 * n.toNat := by
  rw [roundCount, BitVec.toNat_ofNat, Nat.mod_eq_of_lt (by omega)]

/-- WRAP starts at t = 0, j = 0, i = 1 (41_commands.md R70). -/
theorem State.Inv.after_startWrap (h : s.Inv) (hr : s.rstN = true) (idle : s.busy = false)
    (hok : wrapLenOK s.nMax s.len = true) : (startWrap s.clearStatus).Inv := by
  obtain ⟨hn2, hnMax, hlen⟩ := wrapBlocks_toNat h.capacity hok
  refine .of_command h.capacity (h.memory.setHalf (Nat.zero_le _) iv) hr
    (h.creq_of_idle idle) ⟨⟨rfl, rfl, rfl⟩, ⟨hn2, hnMax⟩, rfl, fun _ => hlen, nofun⟩
    (.wrapRound rfl ⟨rfl, Nat.zero_le _, le_refl 1, Nat.le_of_lt hn2⟩ ?_)
  simp

/-- UNWRAP starts at t = 6n, j = 5, i = n (41_commands.md R71). -/
theorem State.Inv.after_startUnwrap (h : s.Inv) (hr : s.rstN = true) (idle : s.busy = false)
    (hok : unwrapLenOK s.nMax s.len = true) : (startUnwrap s.clearStatus).Inv := by
  obtain ⟨hn2, hnMax, hlen⟩ := unwrapBlocks_toNat h.capacity hok
  have hcount : (roundCount (unwrapBlocks s.len)).toNat =
      (unwrapBlocks s.len).toNat * 5 + (unwrapBlocks s.len).toNat := by
    rw [roundCount_toNat]
    omega
  exact .of_command h.capacity h.memory hr
    (h.creq_of_idle idle) ⟨⟨rfl, rfl, rfl⟩, ⟨hn2, hnMax⟩, rfl, nofun, fun _ => hlen⟩
    (.unwrapRound rfl ⟨rfl, le_refl 5, Nat.le_of_lt hn2, le_refl _⟩ hcount)

/-- Every transaction out of reset keeps the invariant. -/
theorem HostUpdate.keepsInv {i : Instr} {u : State} (hu : HostUpdate i s u) (hr : s.rstN = true) (h : s.Inv) :
    u.Inv := by
  cases hu with
  | unchanged => exact h
  | statusWritten d => exact h.writeStatus d
  | irqEnWritten d => exact h.writeIrqEn d
  | lenWritten d _ idle => exact h.writeLen idle d
  | bufWritten off d _ idle inBuf =>
    exact h.storeBytes (h.creq_of_idle idle) (bufIndex_add_four_le inBuf)
  | wrapStarted idle lenOK => exact h.after_startWrap hr idle lenOK
  | unwrapStarted idle lenOK => exact h.after_startUnwrap hr idle lenOK
  | commandFailed e idle =>
    exact h.clearStatus.complete hr (h.creq_of_idle idle) fun _ => rfl

/-- The request sent is the routed block (42_cipher_routing.md R78). -/
theorem State.Inv.after_issue (h : s.Inv) (hp : s.phase = .round) : (issue s).Inv :=
  { h with request := fun _ => ⟨hp, rfl, rfl⟩ }

theorem State.Inv.after_finalStep (h : s.Inv) (hp : s.phase = .final) (hn : s.n.toNat ≤ s.nMax) : (finalStep s).Inv := by
  have hr : s.rstN = true := h.rstN_of_busy (State.busy_eq_true_iff.2 (by simp [hp]))
  have hc : s.creq = false := h.creq_of_phase (by simp [hp])
  obtain ⟨-, he⟩ | ⟨-, -, he⟩ | ⟨-, -, he⟩ := finalStep_cases s <;> rw [he]
  · exact h.complete hr hc (by simp)
  · exact h.complete hr hc (by simp)
  · exact (h.storeBytes hc (zeroes_inside hn)).complete (by simp [hr]) (by simp [hc]) fun _ => rfl

/-- The round counter stays far below its width (10_state.md R27). -/
theorem State.InRound.counter_lt (h : s.InRound) : s.n.toNat * s.j.toNat + s.i.toNat < 4000 := by
  obtain ⟨-, hj, -, hin⟩ := h
  have hmul : s.n.toNat * s.j.toNat ≤ s.n.toNat * 5 := Nat.mul_le_mul_left _ hj
  omega

/-- Each round leaves the sequencer at the next position of its command. -/
theorem State.Inv.position_after_round (h : s.Inv) (hp : s.phase = .round) (b : Block) : (roundWith b s).PositionOK := by
  have hround := h.inRound hp
  have hlt := hround.counter_lt
  have hi := (h.roundRange hp).2.1
  cases hop : s.op with
  | wrap =>
    have ht := h.roundWrap hp hop
    rw [roundWith_wrap b hop, wrapRound]
    have hinc : (s.t + 1).toNat = s.n.toNat * s.j.toNat + s.i.toNat := by bv_omega
    exact advanceWrap_position (by simpa using hop) (by simpa [State.InRound] using hround) (by simpa using hinc)
  | unwrap =>
    have ht := h.roundUnwrap hp hop
    rw [roundWith_unwrap b hop, unwrapRound]
    have hdec : (s.t - 1).toNat + 1 = s.n.toNat * s.j.toNat + s.i.toNat := by bv_omega
    exact advanceUnwrap_position (by simpa using hop) (by simpa [State.InRound] using hround) (by simpa using hdec)

theorem State.Inv.after_round (h : s.Inv) (hp : s.phase = .round) (hb : s.blockOK = true) (b : Block) :
    (roundWith b s).Inv := by
  have busy : s.busy = true := State.busy_eq_true_iff.2 (by simp [hp])
  have hpos := h.position_after_round hp b
  have hmem := roundWith_keepsMemory b hb h.memory
  obtain ⟨status, blocks, heldLen, wrapLen, unwrapLen⟩ := h.command busy
  obtain ⟨m, t, i, j, p, he⟩ := roundWith_frame b s
  rw [he] at hpos hmem ⊢
  exact .of_command h.capacity hmem (h.rstN_of_busy busy) rfl ⟨status, blocks, heldLen, wrapLen, unwrapLen⟩ hpos

/-- Every element of the state at its reset value, at either level of the line (70_reset_and_hazards.md R108). -/
theorem State.Inv.after_reset (h : s.Inv) (level : Bool) : (resetWith level s).Inv :=
  .of_idle h.capacity (.nil _) rfl rfl nofun fun _ => rfl

/-! ## The invariant under each turn -/

variable {t : State}

theorem State.Inv.after_exec (h : s.Inv) {i : Instr} (ht : exec i s = .next t) : t.Inv := by
  obtain ⟨hr, u, d, r, hu, rfl⟩ := exec_cases ht
  exact (hu.keepsInv hr h).respond d r

theorem State.Inv.after_engineTurn (h : s.Inv) (ht : engineTurn s = .next t) : t.Inv := by
  obtain ⟨-, rfl⟩ | ⟨-, -, rfl⟩ | ⟨hp, -, -, rfl⟩ | ⟨hp, hn, rfl⟩ := engineTurn_cases ht
  · exact h
  · exact h
  · exact h.after_issue hp
  · exact h.after_finalStep hp hn

theorem State.Inv.after_cipherTurn (h : s.Inv) {b : Block} (ht : cipherTurn b s = .next t) : t.Inv := by
  obtain ⟨-, rfl⟩ | ⟨-, hp, hb, rfl⟩ := cipherTurn_cases ht
  · exact h
  · exact h.after_round hp hb b

theorem State.Inv.after_rstTurn (h : s.Inv) {level : Bool} (ht : rstTurn level s = .next t) : t.Inv := by
  obtain ⟨-, -, rfl⟩ | ⟨-, rfl⟩ := rstTurn_cases ht
  · exact h
  · exact h.after_reset level

end

/-- Settles O5: each kind of step keeps the invariant, the rounds by the sequencer's position. -/
theorem everyStepKeepsTheInvariant : Obligations.EveryStepKeepsTheInvariant := by
  intro s t h hstep
  obtain ⟨_, rest, -, ht⟩ | ⟨rest, -, ht⟩ | ⟨_, _, rest, -, -, ht⟩ | ⟨_, rest, -, ht⟩ := step_cases hstep
  · exact (h.beginTurn rest).after_exec ht
  · exact (h.beginTurn rest).after_engineTurn ht
  · exact (h.beginTurn rest).after_cipherTurn ht
  · exact (h.beginTurn rest).after_rstTurn ht

end Sys2Proof.Machine
end

section
/-! The state after reset: its registers (O1) and the invariant (O2). -/

namespace Sys2Proof.Machine

/-- CAPS is the number N_MAX for every legal capacity (40_bus_access.md R53). -/
theorem capsWord_eq_ofNat {nMax : Nat} (h : Config.LegalNMax nMax) : capsWord nMax = BitVec.ofNat 32 nMax := by
  apply BitVec.eq_of_toNat_eq
  simp only [capsWord, BitVec.toNat_setWidth, BitVec.toNat_ofNat]
  omega

/-- A powered-on engine has the invariant. -/
theorem State.boot_inv {nMax : Nat} (h : Config.LegalNMax nMax) (agenda : List Event) : (State.boot nMax agenda).Inv :=
  .of_idle h (.nil nMax) rfl rfl nofun fun _ => rfl

/-- Settles O2: the state after reset is idle, with no cell of BUF written. -/
theorem resetMeetsTheInvariant : Obligations.ResetMeetsTheInvariant :=
  ⟨State.boot_inv (nMax := Config.nMaxReference) (by decide) [], fun _ agenda h => State.boot_inv h agenda⟩

theorem State.statusWord_eq_zero {s : State} (hd : s.done = false) (he : s.err = .none) (hb : s.busy = false) :
    s.statusWord = 0 := by
  rw [State.statusWord, hd, he, hb]
  decide

/-- Settles O1: the registers by evaluation, CAPS by the bound on N_MAX. -/
theorem resetLeavesEveryRegisterAtItsValue : Obligations.ResetLeavesEveryRegisterAtItsValue := by
  intro nMax agenda h s
  have caps : exec .rdCaps s = .next (s.readOkay (capsWord nMax)) := rfl
  rw [capsWord_eq_ofNat h] at caps
  have status : s.statusWord = 0 := State.statusWord_eq_zero rfl rfl rfl
  exact ⟨fun _ => rfl, rfl, rfl, rfl, status, rfl, rfl, rfl, rfl, caps, rfl, rfl, rfl, rfl, rfl, rfl, rfl, rfl, rfl⟩

end Sys2Proof.Machine
end

section
/-! What the host can see of the engine (10_state.md R26): while rounds run, no step lets key data into it (O59). -/

namespace Sys2Proof.Machine

/-- The state with its secrets blanked: BUF, the cipher's blocks, and what BUF held at earlier resets (10_state.md R26). -/
def State.visible (s : State) : State := { s with buf := [], cin := 0, cout := 0, bufHistory := [] }

section
variable {s₁ s₂ : State}

/-- What a function reads of the visible part alone, it reads alike in states whose visible parts are equal. -/
theorem congr_visible {α : Type} (h : s₁.visible = s₂.visible) (f : State → α) (hf : ∀ s, f s.visible = f s) :
    f s₁ = f s₂ := by
  rw [← hf s₁, h, hf]

/-- Two states differ at most in secrets where the rest of them is equal. -/
theorem sameButSecrets_iff : SameButSecrets s₁ s₂ ↔ s₁.visible = s₂.visible := by
  constructor
  · intro h
    exact (congrArg State.visible h :)
  · intro h
    exact congr_visible h
      (fun s => { s with buf := s₂.buf, cin := s₂.cin, cout := s₂.cout, bufHistory := s₂.bufHistory }) fun _ => rfl

end

/-- A transaction on a busy engine reads and writes nothing but what is visible. -/
theorem visible_effectOf_busy (i : Instr) {s : State} (hb : s.busy = true) :
    (effectOf i s).visible = effectOf i s.visible := by
  have hb' : s.visible.busy = true := hb
  cases i with
  | nop | wrap | unwrap | illegal | wrCmd | wrLen => rw [effectOf, writeIdle_busy hb, writeIdle_busy hb']; rfl
  | rdBuf off =>
    have hoff : isBufOffset s.visible.nMax off = isBufOffset s.nMax off := rfl
    simp only [effectOf, readBuf, hoff, hb, hb', if_true]
    split <;> rfl
  | wrBuf off d =>
    have hoff : isBufOffset s.visible.nMax off = isBufOffset s.nMax off := rfl
    simp only [effectOf, writeBuf, hoff, writeIdle_busy hb, writeIdle_busy hb']
    split <;> rfl
  | refused size write off data => cases write <;> rfl
  | _ => rfl

/-- Where `Advance` of WRAP goes is visible. -/
theorem visible_advanceWrap (s : State) : (advanceWrap s).visible = advanceWrap s.visible := by
  have next : (nextBlockWrap s).visible = nextBlockWrap s.visible := apply_ite State.visible _ _ _
  unfold advanceWrap
  rw [← next]
  exact apply_ite State.visible _ _ _

/-- Where `Advance` of UNWRAP goes is visible. -/
theorem visible_advanceUnwrap (s : State) : (advanceUnwrap s).visible = advanceUnwrap s.visible := by
  have next : (nextBlockUnwrap s).visible = nextBlockUnwrap s.visible := apply_ite State.visible _ _ _
  unfold advanceUnwrap
  rw [← next]
  exact apply_ite State.visible _ _ _

/-- What a round stores is secret, and so is the answer latched. -/
theorem visible_storeRound (b : Block) (a r : Half) (t : BitVec 32) (s : State) :
    State.visible { storeRound a r (latch b s) with t := t } = { s.visible with t := t, creq := false } := by
  simp [State.visible]

section
variable {s₁ s₂ t₁ : State} (h : s₁.visible = s₂.visible)
include h

/-- A round with any two answers. -/
theorem visible_roundWith (b₁ b₂ : Block) : (roundWith b₁ s₁).visible = (roundWith b₂ s₂).visible := by
  have hop : s₁.op = s₂.op := congr_visible h State.op fun _ => rfl
  cases hop₂ : s₂.op with
  | wrap =>
    rw [roundWith_wrap b₁ (hop.trans hop₂), roundWith_wrap b₂ hop₂, wrapRound, wrapRound, visible_advanceWrap,
      visible_advanceWrap, visible_storeRound, visible_storeRound]
    exact congr_visible h (fun s => advanceWrap { s.visible with t := s.t + 1, creq := false }) fun _ => rfl
  | unwrap =>
    rw [roundWith_unwrap b₁ (hop.trans hop₂), roundWith_unwrap b₂ hop₂, unwrapRound, unwrapRound,
      visible_advanceUnwrap, visible_advanceUnwrap, visible_storeRound, visible_storeRound]
    exact congr_visible h (fun s => advanceUnwrap { s.visible with t := s.t - 1, creq := false }) fun _ => rfl

theorem exec_visible (i : Instr) (hb : s₁.busy = true) (ht : exec i s₁ = .next t₁) :
    ∃ t₂, exec i s₂ = .next t₂ ∧ t₁.visible = t₂.visible := by
  rw [exec_eq_transact] at ht ⊢
  obtain ⟨hr, rfl⟩ := transact_cases ht
  have hr₂ : s₂.rstN = true := (congr_visible h State.rstN fun _ => rfl).symm.trans hr
  have hb₂ : s₂.busy = true := (congr_visible h State.busy fun _ => rfl).symm.trans hb
  exact ⟨_, transact_eq_next hr₂ _, by rw [visible_effectOf_busy i hb, visible_effectOf_busy i hb₂, h]⟩

theorem engineTurn_visible (hp : s₁.phase = .round ∨ (s₁.phase = .final ∧ s₁.op = .wrap))
    (ht : engineTurn s₁ = .next t₁) : ∃ t₂, engineTurn s₂ = .next t₂ ∧ t₁.visible = t₂.visible := by
  have hphase : s₁.phase = s₂.phase := congr_visible h State.phase fun _ => rfl
  have hcreq : s₁.creq = s₂.creq := congr_visible h State.creq fun _ => rfl
  obtain ⟨hi, rfl⟩ | ⟨hround, hc, rfl⟩ | ⟨hround, hc, hb, rfl⟩ | ⟨hfinal, hn, rfl⟩ := engineTurn_cases ht
  · exact ⟨s₂, engineTurn_idle (hphase ▸ hi), h⟩
  · exact ⟨s₂, engineTurn_waits (hphase ▸ hround) (hcreq ▸ hc), h⟩
  · have hb₂ : s₂.blockOK = true := (congr_visible h State.blockOK fun _ => rfl).symm.trans hb
    exact ⟨_, engineTurn_issues (hphase ▸ hround) (hcreq ▸ hc) hb₂,
      congr_visible h (fun s => (issue s).visible) fun _ => rfl⟩
  · have hop₁ : s₁.op = .wrap := by simpa [hfinal] using hp
    have hop₂ : s₂.op = .wrap := (congr_visible h State.op fun _ => rfl).symm.trans hop₁
    have hn₂ : s₂.n.toNat ≤ s₂.nMax := by
      rw [← congr_visible h State.n fun _ => rfl, ← congr_visible h State.nMax fun _ => rfl]
      exact hn
    refine ⟨_, engineTurn_completes (hphase ▸ hfinal) hn₂, ?_⟩
    simp only [finalStep, hop₁, hop₂]
    exact congr_visible h (fun s => (wrapFinal s).visible) fun _ => rfl

theorem cipherTurn_visible (b₁ b₂ : Block) (ht : cipherTurn b₁ s₁ = .next t₁) :
    ∃ t₂, cipherTurn b₂ s₂ = .next t₂ ∧ t₁.visible = t₂.visible := by
  have hcreq : s₁.creq = s₂.creq := congr_visible h State.creq fun _ => rfl
  obtain ⟨hc, rfl⟩ | ⟨hc, hp, hb, rfl⟩ := cipherTurn_cases ht
  · exact ⟨s₂, cipherTurn_ignored b₂ (hcreq ▸ hc), h⟩
  · have hp₂ : s₂.phase = .round := (congr_visible h State.phase fun _ => rfl).symm.trans hp
    have hb₂ : s₂.blockOK = true := (congr_visible h State.blockOK fun _ => rfl).symm.trans hb
    exact ⟨_, cipherTurn_completes_round b₂ (hcreq ▸ hc) hp₂ hb₂, visible_roundWith h b₁ b₂⟩

theorem rstTurn_visible (level : Bool) (ht : rstTurn level s₁ = .next t₁) :
    ∃ t₂, rstTurn level s₂ = .next t₂ ∧ t₁.visible = t₂.visible := by
  have hrst : s₁.rstN = s₂.rstN := congr_visible h State.rstN fun _ => rfl
  unfold rstTurn at ht ⊢
  rw [← hrst]
  by_cases hl : (level && s₁.rstN) = true
  · rw [if_pos hl] at ht ⊢
    cases ht
    exact ⟨s₂, rfl, h⟩
  · rw [if_neg hl] at ht ⊢
    cases ht
    exact ⟨_, rfl, congr_visible h (fun s => (resetWith level s).visible) fun _ => rfl⟩

/-- One move on two engines that are equal but for secrets. -/
theorem turn_visible (e : Event) (hp : s₁.phase = .round ∨ (s₁.phase = .final ∧ s₁.op = .wrap))
    (ht : turn e s₁ = .next t₁) : ∃ t₂, turn e s₂ = .next t₂ ∧ t₁.visible = t₂.visible := by
  cases e with
  | host w =>
    have hb : s₁.busy = true := State.busy_eq_true_iff.2 (by rcases hp with hp | ⟨hp, -⟩ <;> simp [hp])
    have hdecode : decode s₁.nMax w = decode s₂.nMax w := congr_visible h (fun s => decode s.nMax w) fun _ => rfl
    simp only [turn, hostTurn, hdecode] at ht ⊢
    exact exec_visible h _ hb ht
  | engine => exact engineTurn_visible h hp ht
  | cack => exact cipherTurn_visible h _ _ ht
  | cackWith b => exact cipherTurn_visible h b b ht
  | rst level => exact rstTurn_visible h level ht

end

/-- Settles O59: the visible part of the next state is a function of the visible part of the state, move by move. -/
theorem runningCommandRevealsNoKeyData : Obligations.RunningCommandRevealsNoKeyData := by
  intro s₁ s₂ t₁ hsame hp hstep
  have h : s₁.visible = s₂.visible := sameButSecrets_iff.1 hsame
  have hagenda : s₁.agenda = s₂.agenda := congr_visible h State.agenda fun _ => rfl
  have hbegin : (s₁.beginTurn s₂.agenda.tail).visible = (s₂.beginTurn s₂.agenda.tail).visible :=
    congr_visible h (fun s => (s.beginTurn s₂.agenda.tail).visible) fun _ => rfl
  rw [step_eq_turn, hagenda] at hstep
  obtain ⟨t₂, ht₂, hpub⟩ := turn_visible hbegin _ hp hstep
  exact ⟨t₂, by rw [step_eq_turn, ht₂], sameButSecrets_iff.2 hpub⟩

end Sys2Proof.Machine
end

section
/-! The bus transactions (20_memory.md): their place in the window (O14), the step that runs one (O15, O16), what every
transaction leaves alone (O17), and BUF words read back (O30). -/

namespace Sys2Proof.Machine

/-! ## The window -/

theorem windowOffset_systemAddress (kwBase : Nat) (off : Offset) :
    windowOffset kwBase (systemAddress kwBase off) = some off := by
  have hlt : off.toNat < 4096 := off.isLt
  have hin : kwBase ≤ systemAddress kwBase off ∧ systemAddress kwBase off < kwBase + 4096 := by
    unfold systemAddress
    omega
  rw [windowOffset, if_pos hin, systemAddress, Nat.add_sub_cancel_left, BitVec.ofNat_toNat, BitVec.setWidth_eq]

section
variable {kwBase : Nat} (h : Config.LegalKwBase kwBase)
include h

theorem systemAddress_low_bits (off : Offset) : systemAddress kwBase off % 4096 = off.toNat := by
  have hlt : off.toNat < 4096 := off.isLt
  unfold systemAddress
  omega

/-- The window at an aligned base is one 4096-byte block, and an address in it has its low 12 bits as offset. -/
theorem windowOffset_of_aligned (addr : Nat) : windowOffset kwBase addr =
    if addr / 4096 = kwBase / 4096 then some (BitVec.ofNat 12 addr) else none := by
  have hblock : (kwBase ≤ addr ∧ addr < kwBase + 4096) ↔ addr / 4096 = kwBase / 4096 := by omega
  unfold windowOffset
  by_cases hin : kwBase ≤ addr ∧ addr < kwBase + 4096
  · have hbits : BitVec.ofNat 12 (addr - kwBase) = BitVec.ofNat 12 addr := by
      apply BitVec.eq_of_toNat_eq
      simp only [BitVec.toNat_ofNat]
      omega
    rw [if_pos hin, if_pos (hblock.1 hin), hbits]
  · rw [if_neg hin, if_neg (mt hblock.2 hin)]

end

/-- Settles O14, by the arithmetic of the window at any base and at an aligned one. -/
theorem systemAddressNamesItsOffset : Obligations.SystemAddressNamesItsOffset := fun kwBase off =>
  ⟨windowOffset_systemAddress kwBase off, fun h => ⟨systemAddress_low_bits h off, windowOffset_of_aligned h⟩⟩

/-! ## The step of a transaction -/

/-- Settles O15: the turn of a host event is the transaction's. -/
theorem stepRunsTheDecodedTransaction : Obligations.StepRunsTheDecodedTransaction := by
  intro s h rest hagenda
  rw [step_eq_turn, hagenda]
  rfl

theorem withFetchWord_eq_withHostWord (s : State) {nbits w : Nat} {h : HostWord} (hw : tableHostWord nbits w = some h) :
    s.withFetchWord nbits w = s.withHostWord h := by
  simp [State.withFetchWord, hw]

/-- Settles O16: the placed word is the head of the agenda, so O15 applies. -/
theorem fetchWordIsRunNext : Obligations.FetchWordIsRunNext := by
  intro s nbits w h hw
  rw [withFetchWord_eq_withHostWord s hw]
  exact stepRunsTheDecodedTransaction (s.withHostWord h) h s.agenda rfl

/-! ## Every transaction is answered -/

/-- What no transaction writes: N_MAX, the reset line, the agenda, BUF's history and the cipher's latches. -/
theorem HostUpdate.frame {i : Instr} {s u : State} (hu : HostUpdate i s u) :
    u.nMax = s.nMax ∧ u.rstN = s.rstN ∧ u.agenda = s.agenda ∧ u.bufHistory = s.bufHistory ∧
      u.creq = s.creq ∧ u.cdir = s.cdir ∧ u.cin = s.cin ∧ u.cout = s.cout := by
  cases hu <;> exact ⟨rfl, rfl, rfl, rfl, rfl, rfl, rfl, rfl⟩

/-- Settles O17: out of reset the effect of every instruction is an update, with its frame, and an answer. -/
theorem everyTransactionIsAnswered : Obligations.EveryTransactionIsAnswered := by
  intro i s hr
  obtain ⟨u, d, r, hu, he⟩ := effectOf_update i s
  exact ⟨u.respond d r, ⟨d, r⟩, by rw [exec_eq_transact, transact_eq_next hr, he], rfl, hu.frame⟩

/-! ## Words of BUF -/

theorem State.bufWord_storeWord_frame (s : State) {k k' : Nat} (d : Word) (h : k' + 4 ≤ k ∨ k + 4 ≤ k') :
    (s.storeWord k d).bufWord k' = s.bufWord k' := by
  have keep (a : Nat) (ha : k' ≤ a ∧ a < k' + 4) : (s.storeWord k d).bufByte a = s.bufByte a :=
    State.bufByte_storeBytes_frame s (by rw [wordBytes_length]; omega)
  simp only [State.bufWord]
  rw [keep, keep, keep, keep] <;> omega

/-- The words of two BUF offsets share no byte, since both are aligned (20_memory.md R34). -/
theorem bufIndex_disjoint {nMax : Nat} {off off' : Offset} (h : isBufOffset nMax off = true)
    (h' : isBufOffset nMax off' = true) (hne : off' ≠ off) :
    bufIndex off' + 4 ≤ bufIndex off ∨ bufIndex off + 4 ≤ bufIndex off' := by
  obtain ⟨hal, hlo, -⟩ := (isBufOffset_iff nMax off).1 h
  obtain ⟨hal', hlo', -⟩ := (isBufOffset_iff nMax off').1 h'
  have hnat : off'.toNat ≠ off.toNat := fun he => hne (BitVec.eq_of_toNat_eq he)
  simp only [aligned, beq_iff_eq] at hal hal'
  unfold bufIndex
  omega

section
variable {s : State} {off : Offset} (hr : s.rstN = true) (idle : s.busy = false) (hoff : isBufOffset s.nMax off = true)
include hr idle hoff

/-- RD BUF on an idle engine answers the word at its offset (40_bus_access.md R61). -/
theorem exec_rdBuf_idle_iff (v : Word) :
    exec (.rdBuf off) s = .next (s.respond (some v) .okay) ↔ s.bufWord (bufIndex off) = v := by
  have read : exec (.rdBuf off) s = .next (s.respond (some (s.bufWord (bufIndex off))) .okay) := by
    rw [exec_eq_transact, transact_eq_next hr]
    simp [effectOf, readBuf, hoff, idle]
  rw [read]
  constructor
  · intro h
    simpa using congrArg State.response (Host.Outcome.next.inj h)
  · rintro rfl
    rfl

/-- WR BUF on an idle engine (40_bus_access.md R62). -/
theorem exec_wrBuf_idle (d : Word) :
    exec (.wrBuf off d) s = .next ((s.storeWord (bufIndex off) d).respond none .okay) := by
  rw [exec_eq_transact, transact_eq_next hr, effectOf, writeBuf, if_pos hoff, writeIdle_idle idle]

end

/-- Settles O30: the write leaves an idle engine, whose reads of BUF give the word stored and the words apart from it. -/
theorem bufWordsReadBack : Obligations.BufWordsReadBack := by
  intro s t off off' d hr idle hoff hoff' hwrite
  rw [exec_wrBuf_idle hr idle hoff] at hwrite
  obtain rfl := Host.Outcome.next.inj hwrite
  have stored : (s.storeWord (bufIndex off) d).bufWord (bufIndex off) = d := s.bufWord_storeWord _ d
  have read {o : Offset} (ho : isBufOffset s.nMax o = true) :=
    exec_rdBuf_idle_iff (s := (s.storeWord (bufIndex off) d).respond none .okay) hr idle ho
  refine ⟨(read hoff d).2 stored, fun hne v hread => ?_⟩
  have kept : (s.storeWord (bufIndex off) d).bufWord (bufIndex off') = v :=
    calc
      _ = s.bufWord (bufIndex off') := s.bufWord_storeWord_frame d (bufIndex_disjoint hoff hoff' hne)
      _ = v := (exec_rdBuf_idle_iff hr idle hoff' v).1 hread
  exact (read hoff' v).2 kept

end Sys2Proof.Machine
end

section
/-! The bits of an instruction (30_encoding.md): a command word by its fields (O12, O18), a descriptor by its row of the
transaction table (O11), the decoder and the encoder as inverses (O9, O10), and words written out (O13). -/

namespace Sys2Proof

open Sys2Proof.Machine

/-! ## Command words -/

/-- ILLEGAL's fields make up a word above 2 (30_encoding.md R45). -/
theorem wfIllegal_iff (opc : BitVec 4) (mbz : BitVec 28) : wfIllegal opc mbz = true ↔ 3 ≤ (mbz ++ opc).toNat := by
  have word : (mbz ++ opc).toNat = 16 * mbz.toNat + opc.toNat := by
    rw [BitVec.toNat_append, ← Nat.shiftLeft_add_eq_or_of_lt opc.isLt, Nat.shiftLeft_eq, Nat.mul_comm]
  have zero : mbz = 0 ↔ mbz.toNat = 0 := BitVec.toNat_inj.symm
  simp only [wfIllegal, Bool.or_eq_true, decide_eq_true_eq, ne_eq, zero, word]
  omega

/-- A word of the two fields of ILLEGAL decodes to them (30_encoding.md R45). -/
theorem decodeCmd_append {opc : BitVec 4} {mbz : BitVec 28} (h : wfIllegal opc mbz = true) :
    decodeCmd (mbz ++ opc) = .illegal opc mbz := by
  have above : 3 ≤ (mbz ++ opc).toNat := (wfIllegal_iff opc mbz).1 h
  have ne {v : Word} (hv : v.toNat < 3) : mbz ++ opc ≠ v := by rintro rfl; omega
  rw [decodeCmd, if_neg (ne (by decide)), if_neg (ne (by decide)), if_neg (ne (by decide)),
    BitVec.extractLsb'_append_eq_right, BitVec.extractLsb'_append_eq_left]

/-- The complete decode of a command word (30_encoding.md R44, R45). -/
theorem decodeCmd_cases (w : Word) :
    (w = 0 ∧ decodeCmd w = .nop) ∨ (w = 1 ∧ decodeCmd w = .wrap) ∨ (w = 2 ∧ decodeCmd w = .unwrap) ∨
      ∃ opc mbz, w = mbz ++ opc ∧ wfIllegal opc mbz = true ∧ decodeCmd w = .illegal opc mbz := by
  by_cases h : w.toNat < 3
  · have : w = 0 ∨ w = 1 ∨ w = 2 := by bv_omega
    obtain rfl | rfl | rfl := this
    · exact .inl ⟨rfl, rfl⟩
    · exact .inr (.inl ⟨rfl, rfl⟩)
    · exact .inr (.inr (.inl ⟨rfl, rfl⟩))
  · have fields : w.extractLsb' 4 28 ++ w.extractLsb' 0 4 = w := by
      rw [BitVec.extractLsb'_append_extractLsb'_eq_extractLsb' (show 4 = 0 + 4 from rfl)]
      exact BitVec.extractLsb'_eq_self
    have wf : wfIllegal (w.extractLsb' 0 4) (w.extractLsb' 4 28) = true := by
      rw [wfIllegal_iff, fields]
      omega
    exact .inr (.inr (.inr ⟨_, _, fields.symm, wf, by rw [← decodeCmd_append wf, fields]⟩))

/-- Settles O12, by the cases of the decode. -/
theorem commandDecodeIsExact : Obligations.CommandDecodeIsExact := by
  refine fun nMax => ⟨rfl, rfl, rfl, fun w h0 h1 h2 => ?_⟩
  obtain ⟨h, -⟩ | ⟨h, -⟩ | ⟨h, -⟩ | ⟨opc, mbz, hw, -, hd⟩ := decodeCmd_cases w
  · exact absurd h h0
  · exact absurd h h1
  · exact absurd h h2
  · exact ⟨opc, mbz, hd, hw.symm⟩

theorem effectOf_decodeCmd (w : Word) : effectOf (decodeCmd w) = effectOf (.wrCmd w) := by
  obtain ⟨rfl, -⟩ | ⟨rfl, -⟩ | ⟨rfl, -⟩ | ⟨opc, mbz, rfl, -, hd⟩ := decodeCmd_cases w
  · rfl
  · rfl
  · rfl
  · rw [hd]
    rfl

/-- Settles O18: the instruction of each command word has the effect of its write to CMD. -/
theorem commandRowsAreWritesToCmd : Obligations.CommandRowsAreWritesToCmd := by
  intro nMax w s
  rw [exec_eq_transact, exec_eq_transact, decode, effectOf_decodeCmd]

/-! ## Descriptors -/

/-- A descriptor is made up of its four fields (30_encoding.md R47). -/
theorem descriptor_fields (d : BitVec 47) : descriptor (descSize d) (descWrite d) (descOff d) (descData d) = d := by
  have bit : BitVec.ofBool (descWrite d) = d.extractLsb' 44 1 := by
    apply BitVec.eq_of_getLsbD_eq
    intro i hi
    obtain rfl : i = 0 := by omega
    simp [descWrite]
  rw [descriptor, bit, descSize, descOff, descData,
    BitVec.extractLsb'_append_extractLsb'_eq_extractLsb' (show 45 = 44 + 1 from rfl),
    BitVec.extractLsb'_append_extractLsb'_eq_extractLsb' (show 44 = 32 + 12 from rfl),
    BitVec.extractLsb'_append_extractLsb'_eq_extractLsb' (show 32 = 0 + 32 from rfl)]
  exact BitVec.extractLsb'_eq_self

section
variable {nMax : Nat} {size : BitVec 2} (write : Bool) {off : Offset} (data : Word)

@[simp] theorem decode_bus_descriptor :
    decode nMax (.bus (descriptor size write off data)) = decodeFields nMax size write off data := by
  simp [decode, decodeBus]

/-- A 32-bit transaction at a register's offset (30_encoding.md R48). -/
theorem decodeFields_register (r : Reg) :
    decodeFields nMax 2 write (regOffset r) data = if write then wrReg data r else rdReg r := by
  simp [decodeFields]

/-- A 32-bit transaction at a BUF offset (30_encoding.md R48). -/
theorem decodeFields_buffer (h : isBufOffset nMax off = true) :
    decodeFields nMax 2 write off data = if write then .wrBuf off data else .rdBuf off := by
  simp [decodeFields, ((isBufOffset_iff nMax off).1 h).1, regAt_of_isBufOffset h, h]

/-- Which descriptors are transactions: 32 bits, at a register or at a BUF offset (30_encoding.md R48). -/
theorem decodes_iff :
    decodes nMax size off = true ↔ size = 2 ∧ ((∃ r, off = regOffset r) ∨ isBufOffset nMax off = true) := by
  constructor
  · intro h
    simp only [decodes, Bool.and_eq_true, Bool.or_eq_true, decide_eq_true_eq] at h
    obtain ⟨⟨hsize, -⟩, hreg | hbuf⟩ := h
    · obtain ⟨r, hr⟩ := Option.isSome_iff_exists.1 hreg
      exact ⟨hsize, .inl ⟨r, regAt_eq_some hr⟩⟩
    · exact ⟨hsize, .inr hbuf⟩
  · rintro ⟨rfl, ⟨r, rfl⟩ | hbuf⟩
    · simp [decodes]
    · simp [decodes, hbuf, ((isBufOffset_iff nMax off).1 hbuf).1]

/-- Every other descriptor (30_encoding.md R48, 40_bus_access.md R63). -/
theorem decodeFields_refused (h : decodes nMax size off = false) :
    decodeFields nMax size write off data = .refused size write off data := by
  unfold decodeFields
  split
  · rename_i hlegal
    simp only [decodes, hlegal, decide_true, Bool.true_and, Bool.or_eq_false_iff, Option.isSome_eq_false_iff,
      Option.isNone_iff_eq_none] at h
    simp [h]
  · rfl

theorem encode_register (r : Reg) : encode (if write then wrReg data r else rdReg r) =
    .bus (descriptor 2 write (regOffset r) (if write then data else 0)) := by
  cases write <;> cases r <;> rfl

theorem wf_register (r : Reg) : (if write then wrReg data r else rdReg r).wf nMax = true := by
  cases write <;> cases r <;> rfl

theorem wf_decodeFields : (decodeFields nMax size write off data).wf nMax = true := by
  cases h : decodes nMax size off with
  | false =>
    rw [decodeFields_refused write data h]
    simp [Instr.wf, wfRefused, h]
  | true =>
    obtain ⟨rfl, ⟨r, rfl⟩ | hbuf⟩ := decodes_iff.1 h
    · rw [decodeFields_register]
      exact wf_register write data r
    · rw [decodeFields_buffer write data hbuf]
      cases write <;> exact hbuf

/-- The encoder puts back the fields of a decoded transaction, but the DATA of a read (30_encoding.md R47). -/
theorem encode_decodeFields (h : decodes nMax size off = true) : encode (decodeFields nMax size write off data) =
    .bus (descriptor size write off (if write then data else 0)) := by
  obtain ⟨rfl, ⟨r, rfl⟩ | hbuf⟩ := decodes_iff.1 h
  · rw [decodeFields_register, encode_register]
  · rw [decodeFields_buffer write data hbuf]
    cases write <;> rfl

end

/-! ## The decoder and the encoder -/

theorem decode_encodeRead (nMax : Nat) (r : Reg) : decode nMax (encodeRead r) = rdReg r := by
  rw [encodeRead, decode_bus_descriptor, decodeFields_register]
  rfl

theorem decode_encodeWrite (nMax : Nat) (r : Reg) (data : Word) : decode nMax (encodeWrite r data) = wrReg data r := by
  rw [encodeWrite, decode_bus_descriptor, decodeFields_register]
  rfl

/-- Settles O9, by the constructors of the instruction, each by the decode of its row. -/
theorem decodeUndoesEncode : Obligations.DecodeUndoesEncode := by
  intro nMax i h
  cases i with
  | nop | wrap | unwrap => rfl
  | illegal opc mbz => exact decodeCmd_append h
  | rdId => exact decode_encodeRead nMax .id
  | rdCaps => exact decode_encodeRead nMax .caps
  | rdCmd => exact decode_encodeRead nMax .cmd
  | rdStatus => exact decode_encodeRead nMax .status
  | rdLen => exact decode_encodeRead nMax .len
  | rdOutlen => exact decode_encodeRead nMax .outlen
  | rdIrqEn => exact decode_encodeRead nMax .irqEn
  | wrId data => exact decode_encodeWrite nMax .id data
  | wrCaps data => exact decode_encodeWrite nMax .caps data
  | wrCmd data => exact decode_encodeWrite nMax .cmd data
  | wrStatus data => exact decode_encodeWrite nMax .status data
  | wrLen data => exact decode_encodeWrite nMax .len data
  | wrOutlen data => exact decode_encodeWrite nMax .outlen data
  | wrIrqEn data => exact decode_encodeWrite nMax .irqEn data
  | rdBuf off => rw [encode, decode_bus_descriptor, decodeFields_buffer false 0 h]; rfl
  | wrBuf off data => rw [encode, decode_bus_descriptor, decodeFields_buffer true data h]; rfl
  | refused size write off data =>
    have hd : decodes nMax size off = false := by simpa [Instr.wf, wfRefused] using h
    rw [encode, decode_bus_descriptor, decodeFields_refused write data hd]

theorem wf_decodeCmd (nMax : Nat) (w : Word) : (decodeCmd w).wf nMax = true := by
  obtain ⟨-, hd⟩ | ⟨-, hd⟩ | ⟨-, hd⟩ | ⟨opc, mbz, -, hwf, hd⟩ := decodeCmd_cases w <;> rw [hd]
  · rfl
  · rfl
  · rfl
  · exact hwf

theorem encode_decodeCmd (w : Word) : encode (decodeCmd w) = .cmd w := by
  obtain ⟨rfl, -⟩ | ⟨rfl, -⟩ | ⟨rfl, -⟩ | ⟨opc, mbz, rfl, -, hd⟩ := decodeCmd_cases w
  · rfl
  · rfl
  · rfl
  · rw [hd]
    rfl

theorem wf_decode (nMax : Nat) (h : HostWord) : (decode nMax h).wf nMax = true := by
  cases h with
  | cmd w => exact wf_decodeCmd nMax w
  | bus d => exact wf_decodeFields _ _

/-- Settles O10: a command word by its decode, a descriptor by whether it decodes, with its own fields put back. -/
theorem encodeUndoesDecode : Obligations.EncodeUndoesDecode := by
  refine fun nMax h => ⟨wf_decode nMax h, ?_, ?_, ?_⟩
  · rintro w rfl
    exact encode_decodeCmd w
  · rintro d rfl hd
    cases hdec : decodes nMax (descSize d) (descOff d) with
    | false =>
      rw [decode, decodeBus, decodeFields_refused _ _ hdec, encode, descriptor_fields]
    | true =>
      have kept : (if descWrite d then descData d else 0) = descData d := by
        obtain hno | hwrite | hzero := hd
        · simp [hdec] at hno
        · simp [hwrite]
        · simp [hzero]
      rw [decode, decodeBus, encode_decodeFields _ _ hdec, kept, descriptor_fields]
  · rintro d rfl hdec hread
    obtain ⟨hsize, -⟩ := decodes_iff.1 hdec
    rw [decode, decodeBus, encode_decodeFields _ _ hdec, hsize, hread]
    rfl

/-! ## The transaction table -/

/-- A descriptor whose size, alignment or offset is none of the table's is no transaction (30_encoding.md R48). -/
theorem decodes_eq_false {nMax : Nat} {size : BitVec 2} {off : Offset}
    (h : size ≠ 2 ∨ off.toNat % 4 ≠ 0 ∨ (0x01C ≤ off.toNat ∧ off.toNat ≤ 0x0FF) ∨
      0x100 + 8 * (nMax + 1) ≤ off.toNat) :
    decodes nMax size off = false := by
  rw [← Bool.not_eq_true, decodes_iff]
  rintro ⟨hsize, hoff⟩
  have hout := h.resolve_left (not_not.2 hsize)
  obtain ⟨r, rfl⟩ | hbuf := hoff
  · have hreg : (regOffset r).toNat % 4 = 0 ∧ (regOffset r).toNat < 0x01C := by cases r <;> decide
    omega
  · obtain ⟨hal, hlo, hhi⟩ := (isBufOffset_iff nMax off).1 hbuf
    simp only [aligned, beq_iff_eq, bufBase, bufSize] at hal hlo hhi
    omega

/-- Settles O11: the rows of registers, those of BUF, and the default row. -/
theorem transactionDecodeFollowsItsTable : Obligations.TransactionDecodeFollowsItsTable := by
  intro nMax data
  have register (write : Bool) (r : Reg) : decode nMax (.bus (descriptor 2 write (regOffset r) data)) =
      if write then wrReg data r else rdReg r := by
    rw [decode_bus_descriptor, decodeFields_register]
  refine ⟨register false .id, register false .caps, register false .cmd, register false .status, register false .len,
    register false .outlen, register false .irqEn, register true .id, register true .caps, register true .outlen,
    register true .cmd, register true .status, register true .len, register true .irqEn, ?_, ?_⟩
  · intro off hal hlo hhi
    have hbuf : isBufOffset nMax off = true := by
      simp only [isBufOffset_iff, aligned, beq_iff_eq, bufBase, bufSize]
      omega
    constructor <;> rw [decode_bus_descriptor, decodeFields_buffer _ _ hbuf] <;> rfl
  · intro size write off h
    rw [decode_bus_descriptor, decodeFields_refused write data (decodes_eq_false h)]

/-- Settles O13, by evaluating the decoder on each word. -/
theorem writtenOutWordsDecode : Obligations.WrittenOutWordsDecode :=
  ⟨by decide, by decide, by decide, by decide, by decide, by decide, by decide⟩

end Sys2Proof
end

section
/-! The writes of LOADB (30_encoding.md R50): run as the host's moves, they are one store of the byte string (O31). -/

namespace Sys2Proof.Machine

theorem wordBytes_le32 (b0 b1 b2 b3 : Byte) : wordBytes (le32 b0 b1 b2 b3) = [b0, b1, b2, b3] := by
  have below {v w : Nat} (x : BitVec v) (y : BitVec w) {i : Nat} (hi : w ≤ i) :
      (x ++ y).extractLsb' i 8 = x.extractLsb' (i - w) 8 := BitVec.extractLsb'_append_eq_of_le hi
  have byte0 : (b3 ++ b2 ++ b1 ++ b0).extractLsb' 0 8 = b0 := BitVec.extractLsb'_append_eq_right
  have byte1 : (b3 ++ b2 ++ b1 ++ b0).extractLsb' 8 8 = b1 :=
    (below _ _ (by decide)).trans BitVec.extractLsb'_append_eq_right
  have byte2 : (b3 ++ b2 ++ b1 ++ b0).extractLsb' 16 8 = b2 :=
    (below _ _ (by decide)).trans ((below _ _ (by decide)).trans BitVec.extractLsb'_append_eq_right)
  have byte3 : (b3 ++ b2 ++ b1 ++ b0).extractLsb' 24 8 = b3 :=
    (below _ _ (by decide)).trans ((below _ _ (by decide)).trans BitVec.extractLsb'_append_eq_left)
  rw [wordBytes, le32, byte0, byte1, byte2, byte3]

/-- A run whose first step answers a next state goes on from it. -/
theorem run_succ {M : Host.Core} {s t : M.State} (h : M.step s = .next t) (count : Nat) :
    M.run (count + 1) s = M.run count t := by
  rw [Host.Core.run, h]

/-- `BUF+k` is the offset of the word at index `k`, at every legal capacity (30_encoding.md R49). -/
theorem bufOffset_inBuf {nMax k : Nat} (hcap : nMax ≤ 479) (hk : k % 4 = 0) (hin : k + 4 ≤ bufSize nMax) :
    isBufOffset nMax (bufOffset k) = true ∧ bufIndex (bufOffset k) = k := by
  have fits : bufBase + k ≤ 0xFFF := by
    unfold bufSize at hin
    unfold bufBase
    omega
  have hoff : (bufOffset k).toNat = bufBase + k := by
    rw [bufOffset, if_pos fits, BitVec.toNat_ofNat]
    omega
  simp only [isBufOffset_iff, bufIndex, aligned, beq_iff_eq, hoff, bufBase]
  omega

/-- The host's moves of LOADB: its transactions, in order (30_encoding.md R50). -/
def loadMoves (k : Nat) (bytes : List Byte) : List Event :=
  ((Pseudo.loadB k bytes).expand.filterMap ScriptLine.transaction).map Event.host

theorem loadMoves_cons (k : Nat) (b0 b1 b2 b3 : Byte) (rest : List Byte) :
    loadMoves k (b0 :: b1 :: b2 :: b3 :: rest) =
      .host (.bus (descriptor 2 true (bufOffset k) (le32 b0 b1 b2 b3))) :: loadMoves (k + 4) rest := rfl

/-- An idle engine takes the host's write of four bytes to `BUF+k` (40_bus_access.md R62). -/
theorem step_writes_bytes {s : State} {k : Nat} {b0 b1 b2 b3 : Byte} {rest : List Event} (hr : s.rstN = true)
    (idle : s.busy = false) (hcap : s.nMax ≤ 479) (hk : k % 4 = 0) (hin : k + 4 ≤ bufSize s.nMax)
    (hagenda : s.agenda = .host (.bus (descriptor 2 true (bufOffset k) (le32 b0 b1 b2 b3))) :: rest) :
    step s = .next (((s.beginTurn rest).storeBytes k [b0, b1, b2, b3]).respond none .okay) := by
  obtain ⟨hoff, hindex⟩ := bufOffset_inBuf hcap hk hin
  have hwrite := exec_wrBuf_idle (s := s.beginTurn rest) hr idle hoff (le32 b0 b1 b2 b3)
  rw [State.storeWord, wordBytes_le32, hindex] at hwrite
  rw [stepRunsTheDecodedTransaction s _ rest hagenda, decode_bus_descriptor, decodeFields_buffer _ _ hoff]
  exact hwrite

/-- The run over LOADB's moves stores the byte string, whole words at a time (30_encoding.md R50). -/
theorem run_loadMoves : ∀ (bytes : List Byte) (s : State) (k : Nat), s.rstN = true → s.busy = false →
    s.nMax ≤ 479 → k % 4 = 0 → bytes.length % 4 = 0 → k + bytes.length ≤ bufSize s.nMax → s.agenda = loadMoves k bytes →
    ∃ r, Host.Core.run core (bytes.length / 4) s =
      .next { s.storeBytes k bytes with agenda := [], response := r }
  | [], s, k, _, _, _, _, _, _, hagenda => by
    have hnil : s.agenda = [] := hagenda
    refine ⟨s.response, ?_⟩
    rw [← hnil]
    rfl
  | b0 :: b1 :: b2 :: b3 :: rest, s, k, hr, idle, hcap, hk, hlen, hin, hagenda => by
    simp only [List.length_cons] at hlen hin
    have first := step_writes_bytes hr idle hcap hk (by omega) (hagenda.trans (loadMoves_cons ..))
    have room : k + 4 + rest.length ≤ bufSize s.nMax := by omega
    obtain ⟨r, hrun⟩ := run_loadMoves rest
      (((s.beginTurn (loadMoves (k + 4) rest)).storeBytes k [b0, b1, b2, b3]).respond none .okay) (k + 4)
      hr idle hcap (by omega) (by omega) room rfl
    have count : (b0 :: b1 :: b2 :: b3 :: rest).length / 4 = rest.length / 4 + 1 := by
      simp only [List.length_cons]
      omega
    rw [count]
    exact ⟨r, (run_succ (M := core) first _).trans hrun⟩
  | [_], _, _, _, _, _, _, hlen, _, _ => by simp at hlen
  | [_, _], _, _, _, _, _, _, hlen, _, _ => by simp at hlen
  | [_, _, _], _, _, _, _, _, _, hlen, _, _ => by simp at hlen

/-- Settles O31: the run is one store of the byte string, so a byte in it is written and every other one is kept. -/
theorem loadbPutsBytesInOrder : Obligations.LoadbPutsBytesInOrder := by
  intro s k bytes hr idle hcap hk hlen hin hagenda
  obtain ⟨r, hrun⟩ := run_loadMoves bytes s k hr idle hcap hk hlen hin hagenda
  have stored (a : Nat) : State.bufByte { s.storeBytes k bytes with agenda := [], response := r } a =
      (s.storeBytes k bytes).bufByte a := State.bufByte_congr rfl rfl a
  refine ⟨_, hrun, rfl, fun m hm => ?_, fun a ha => ?_, rfl⟩
  · rw [stored, State.bufByte_storeBytes, dif_pos (by omega)]
    simp
  · rw [stored, State.bufByte_storeBytes_frame s ha]

end Sys2Proof.Machine
end

section
/-! Reads and writes of the named registers (40_bus_access.md R53 to R60): each answer (O19 to O26), and the one write
that changes LEN (O51). -/

namespace Sys2Proof.Machine

/-! ## The effect of an instruction out of reset -/

section
variable {s : State} {i : Instr} {f : State → State} (hr : s.rstN = true)
include hr

theorem exec_eq_next (i : Instr) : exec i s = .next (effectOf i s) := by
  rw [exec_eq_transact, transact_eq_next hr]

/-- A write of CMD or LEN is refused while busy (70_reset_and_hazards.md R111). -/
theorem exec_writeIdle_busy (hi : effectOf i = writeIdle f) (busy : s.busy = true) :
    exec i s = .next (s.respond none .slverr) := by
  rw [exec_eq_next hr, hi, writeIdle_busy busy]

/-- A write of CMD or LEN on an idle engine has its effect, answered OKAY. -/
theorem exec_writeIdle_idle (hi : effectOf i = writeIdle f) (idle : s.busy = false) :
    exec i s = .next ((f s).respond none .okay) := by
  rw [exec_eq_next hr, hi, writeIdle_idle idle]

end

/-! ## Constants, read-only registers and CMD -/

/-- Settles O19: both reads answer their constant, whatever the engine does. -/
theorem idAndCapsReadTheirConstants : Obligations.IdAndCapsReadTheirConstants :=
  fun _ hr => ⟨exec_eq_next hr .rdId, exec_eq_next hr .rdCaps⟩

/-- Settles O20: the effect of all three writes is the refusal alone. -/
theorem readOnlyRegistersRefuseWrites : Obligations.ReadOnlyRegistersRefuseWrites :=
  fun _ data hr => ⟨exec_eq_next hr (.wrId data), exec_eq_next hr (.wrCaps data), exec_eq_next hr (.wrOutlen data)⟩

theorem accept_zero (s : State) : accept 0 s = s := if_pos rfl

/-- Settles O21: the read by its constant, the write by whether the engine is busy. -/
theorem cmdReadsZeroAndWritesAreAccepted : Obligations.CmdReadsZeroAndWritesAreAccepted := by
  intro s w hr
  refine ⟨exec_eq_next hr .rdCmd, exec_writeIdle_busy hr rfl, exec_writeIdle_idle hr rfl, fun idle => ?_⟩
  rw [exec_writeIdle_idle hr rfl idle, accept_zero]
  rfl

/-! ## STATUS -/

/-- The number that two fields make up, the lower one `m` bits wide. -/
theorem toNat_append_eq_add {n m : Nat} (x : BitVec n) (y : BitVec m) :
    (x ++ y).toNat = 2 ^ m * x.toNat + y.toNat := by
  rw [BitVec.toNat_append, ← Nat.shiftLeft_add_eq_or_of_lt y.isLt, Nat.shiftLeft_eq, Nat.mul_comm]

/-- STATUS as a number: BUSY in bit 0, DONE in bit 1, ERR from bit 4 on (40_bus_access.md R56). -/
theorem State.statusWord_toNat (s : State) :
    s.statusWord.toNat = s.busy.toNat + 2 * s.done.toNat + 16 * s.err.code.toNat := by
  have hbusy : s.busy.toNat < 2 := s.busy.toNat_lt
  have hdone : s.done.toNat < 2 := s.done.toNat_lt
  have hcode : s.err.code.toNat < 16 := s.err.code.isLt
  simp only [State.statusWord, BitVec.toNat_setWidth, toNat_append_eq_add, BitVec.toNat_ofBool, BitVec.toNat_ofNat]
  omega

/-- While busy STATUS shows BUSY alone (40_bus_access.md R56). -/
theorem State.Inv.statusWord_of_busy {s : State} (h : s.Inv) (busy : s.busy = true) : s.statusWord = 1 := by
  obtain ⟨hdone, herr, -⟩ := h.busyStatus busy
  rw [State.statusWord, hdone, herr, busy]
  decide

/-- Settles O22: the answer is `statusWord`, by its number and by its value while busy. -/
theorem statusReadsItsFields : Obligations.StatusReadsItsFields := fun s hr =>
  ⟨s.statusWord, exec_eq_next hr .rdStatus, s.statusWord_toNat, fun h busy => h.statusWord_of_busy busy⟩

theorem State.writeStatus_eq (s : State) (d : Word) :
    s.writeStatus d = { s with done := if d.getLsbD 1 then false else s.done } := by
  unfold State.writeStatus
  cases d.getLsbD 1 <;> simp

theorem State.writeStatus_of_not_done {s : State} (hdone : s.done = false) (d : Word) : s.writeStatus d = s := by
  rw [State.writeStatus, hdone, Bool.false_and, ← hdone]

/-- Settles O23: the write is `writeStatus`, which has nothing to clear while busy. -/
theorem statusWriteClearsDoneOnly : Obligations.StatusWriteClearsDoneOnly := by
  intro s d hr
  have written : exec (.wrStatus d) s = .next ((s.writeStatus d).respond none .okay) := exec_eq_next hr (.wrStatus d)
  refine ⟨by rw [written, State.writeStatus_eq]; rfl, fun h busy => ?_⟩
  rw [written, State.writeStatus_of_not_done (h.busyStatus busy).1]
  rfl

/-! ## LEN -/

section
variable {s t : State} {i : Instr}

theorem HostUpdate.len_changed {u : State} (hu : HostUpdate i s u) (hlen : u.len ≠ s.len) :
    s.busy = false ∧ i = .wrLen u.len := by
  cases hu with
  | lenWritten d hi idle => exact ⟨idle, hi⟩
  | unchanged | statusWritten | irqEnWritten | bufWritten | wrapStarted | unwrapStarted | commandFailed =>
    exact absurd rfl hlen

/-- A transaction changes LEN only as WR LEN of its new value on an idle engine (40_bus_access.md R58). -/
theorem exec_len_changed (ht : exec i s = .next t) (hlen : t.len ≠ s.len) : s.busy = false ∧ i = .wrLen t.len := by
  obtain ⟨-, u, d, r, hu, rfl⟩ := exec_cases ht
  exact hu.len_changed hlen

theorem finalStep_len (s : State) : (finalStep s).len = s.len := by
  obtain ⟨-, he⟩ | ⟨-, -, he⟩ | ⟨-, -, he⟩ := finalStep_cases s <;> rw [he] <;> rfl

theorem engineTurn_len (ht : engineTurn s = .next t) : t.len = s.len := by
  obtain ⟨-, rfl⟩ | ⟨-, -, rfl⟩ | ⟨-, -, -, rfl⟩ | ⟨-, -, rfl⟩ := engineTurn_cases ht
  · rfl
  · rfl
  · rfl
  · exact finalStep_len s

theorem cipherTurn_len {b : Block} (ht : cipherTurn b s = .next t) : t.len = s.len := by
  obtain ⟨-, rfl⟩ | ⟨-, -, -, rfl⟩ := cipherTurn_cases ht
  · rfl
  · obtain ⟨_, _, _, _, _, he⟩ := roundWith_frame b s
    rw [he]

end

/-- Settles O24: the write by whether the engine is busy, and no command word is a write of LEN. -/
theorem lenIsReadAndWritten : Obligations.LenIsReadAndWritten := by
  intro s d hr
  have effect : effectOf (.wrLen d) = writeIdle (State.writeLen d) := rfl
  refine ⟨exec_eq_next hr .rdLen, exec_writeIdle_busy hr effect, exec_writeIdle_idle hr effect, fun w t ht => ?_⟩
  by_contra hlen
  exact nomatch (exec_len_changed ht hlen).2

/-- Settles O51, by the kinds of step: the turns of the engine and of the cipher keep LEN. -/
theorem lenIsChangedByWritesAlone : Obligations.LenIsChangedByWritesAlone := by
  intro s t hstep hlen
  obtain ⟨w, rest, ha, ht⟩ | ⟨_, -, ht⟩ | ⟨_, _, _, -, -, ht⟩ | ⟨level, rest, ha, -⟩ := step_cases hstep
  · obtain ⟨idle, hi⟩ := exec_len_changed ht hlen
    exact .inl ⟨w, rest, t.len, ha, hi, idle, rfl⟩
  · exact absurd (engineTurn_len ht) hlen
  · exact absurd (cipherTurn_len ht) hlen
  · exact .inr ⟨level, rest, ha⟩

/-! ## OUTLEN and IRQ_EN -/

/-- OUTLEN is 0 while busy and after a failure (10_state.md R21). -/
theorem State.Inv.outlen_eq_zero {s : State} (h : s.Inv) (hzero : s.busy = true ∨ s.err ≠ .none) : s.outlen = 0 := by
  obtain busy | failed := hzero
  · exact (h.busyStatus busy).2.2
  · exact h.failureLen failed

/-- Settles O25: the answer is the register, whose value the invariant gives. -/
theorem outlenIsRead : Obligations.OutlenIsRead :=
  fun _ hr => ⟨exec_eq_next hr .rdOutlen, State.Inv.outlen_eq_zero⟩

theorem State.irqEnWord_toNat (s : State) : s.irqEnWord.toNat = s.doneIE.toNat := by
  rw [State.irqEnWord, BitVec.toNat_setWidth, BitVec.toNat_ofBool]
  exact Nat.mod_eq_of_lt (lt_trans s.doneIE.toNat_lt (by decide))

theorem State.irq_of_done {s : State} (hdone : s.done = true) : s.irq = s.doneIE := by
  rw [State.irq, hdone, Bool.true_and]

/-- Settles O26: the write stores bit 0 and keeps DONE, so where DONE is set irq follows the stored bit. -/
theorem irqEnableIsReadAndWritten : Obligations.IrqEnableIsReadAndWritten := by
  intro s d hr
  have written : exec (.wrIrqEn d) s = .next ((s.writeIrqEn d).respond none .okay) := exec_eq_next hr (.wrIrqEn d)
  refine ⟨⟨s.irqEnWord, exec_eq_next hr .rdIrqEn, s.irqEnWord_toNat⟩, written, fun t ht hdone => ?_⟩
  obtain rfl := Host.Outcome.next.inj (written.symm.trans ht)
  exact State.irq_of_done hdone

end Sys2Proof.Machine
end

section
/-! Reads and writes of BUF (40_bus_access.md R61, R62: O27, O28) and the transactions the engine does not decode
(R63: O29). -/

namespace Sys2Proof.Machine

/-- The offsets of BUF's words, by their range (40_bus_access.md R61). -/
theorem isBufOffset_of_range {nMax : Nat} {off : Offset} (hlo : 0x100 ≤ off.toNat)
    (hhi : off.toNat ≤ 0x100 + 8 * (nMax + 1) - 4) (hal : off.toNat % 4 = 0) : isBufOffset nMax off = true := by
  simp only [isBufOffset_iff, aligned, beq_iff_eq, bufBase, bufSize]
  omega

section
variable {s : State} {off : Offset} (hr : s.rstN = true) (busy : s.busy = true) (hoff : isBufOffset s.nMax off = true)
include hr busy hoff

/-- RD BUF on a busy engine (40_bus_access.md R61). -/
theorem exec_rdBuf_busy : exec (.rdBuf off) s = .next (s.respond (some 0) .slverr) := by
  rw [exec_eq_next hr, effectOf, readBuf, if_pos hoff, if_pos busy, State.readRefused_eq]

/-- WR BUF on a busy engine (40_bus_access.md R62). -/
theorem exec_wrBuf_busy (d : Word) : exec (.wrBuf off d) s = .next (s.respond none .slverr) := by
  rw [exec_eq_next hr, effectOf, writeBuf, if_pos hoff, writeIdle_busy busy]

end

/-- Settles O27, by whether the engine is busy. -/
theorem bufWordIsRead : Obligations.BufWordIsRead := by
  intro s off hr hlo hhi hal k
  have hoff : isBufOffset s.nMax off = true := isBufOffset_of_range hlo hhi hal
  exact ⟨fun busy => exec_rdBuf_busy hr busy hoff, fun idle => (exec_rdBuf_idle_iff hr idle hoff _).2 rfl⟩

/-- Byte m of a bus word stands in bits [8m+7:8m] (20_memory.md R32). -/
theorem getElem_wordBytes (d : Word) : ∀ {m : Nat} (hm : m < (wordBytes d).length),
    (wordBytes d)[m] = d.extractLsb' (8 * m) 8
  | 0, _ | 1, _ | 2, _ | 3, _ => rfl

/-- A write of a BUF word puts byte m of the data at its index + m (40_bus_access.md R62). -/
theorem State.bufByte_storeWord (s : State) (k : Nat) (d : Word) {m : Nat} (hm : m < 4) :
    (s.storeWord k d).bufByte (k + m) = d.extractLsb' (8 * m) 8 := by
  have hin : k ≤ k + m ∧ k + m < k + (wordBytes d).length := by rw [wordBytes_length]; omega
  rw [State.storeWord, State.bufByte_storeBytes, dif_pos hin, getElem_wordBytes, Nat.add_sub_cancel_left]

/-- Settles O28, by whether the engine is busy; an idle one stores the word and keeps every byte outside it. -/
theorem bufWordIsWritten : Obligations.BufWordIsWritten := by
  intro s off d hr hlo hhi hal k
  have hoff : isBufOffset s.nMax off = true := isBufOffset_of_range hlo hhi hal
  refine ⟨fun busy => exec_wrBuf_busy hr busy hoff d, fun idle => ⟨_, exec_wrBuf_idle hr idle hoff d, rfl, ?_, ?_⟩⟩
  · exact fun m hm => s.bufByte_storeWord k d hm
  · exact fun a ha => State.bufByte_storeBytes_frame s ha

/-- Settles O29: the row REFUSED answers alone, and every such descriptor decodes to it. -/
theorem undecodedTransactionsAreRefused : Obligations.UndecodedTransactionsAreRefused := by
  intro s size write off data hr
  have refused : exec (.refused size write off data) s =
      .next (s.respond (if write then none else some 0) .slverr) := by
    rw [exec_eq_next hr, effectOf]
    cases write <;> rfl
  refine ⟨fun _ => refused, fun h => ?_⟩
  rw [decode_bus_descriptor, decodeFields_refused write data (decodes_eq_false h)]
  exact refused

end Sys2Proof.Machine
end

section
/-! The commands (41_commands.md): acceptance of each command word, on an idle engine and while busy (O32 to O38), and what
the rows answer to operands that no bits decode to (O60). -/

namespace Sys2Proof.Machine

/-! ## The length checks -/

/-- The WRAP length check on unsigned integers (41_commands.md R68, R72). -/
theorem wrapLenOK_iff {nMax : Nat} {len : Word} :
    wrapLenOK nMax len = true ↔ 16 ≤ len.toNat ∧ len.toNat % 8 = 0 ∧ len.toNat ≤ 8 * nMax := by
  simp only [wrapLenOK, Bool.and_eq_true, decide_eq_true_eq, and_assoc]

/-- The UNWRAP length check on unsigned integers (41_commands.md R69, R72). -/
theorem unwrapLenOK_iff {nMax : Nat} {len : Word} :
    unwrapLenOK nMax len = true ↔ 24 ≤ len.toNat ∧ len.toNat % 8 = 0 ∧ len.toNat ≤ 8 * (nMax + 1) := by
  simp only [unwrapLenOK, Bool.and_eq_true, decide_eq_true_eq, and_assoc]

/-! ## Acceptance -/

section
variable {s : State}

/-- Acceptance of every word above 2 is ILLEGAL's (41_commands.md R67). -/
theorem accept_of_three_le {w : Word} (hw : 3 ≤ w.toNat) (s : State) : accept w s = acceptIllegal s := by
  obtain ⟨rfl, -⟩ | ⟨rfl, -⟩ | ⟨rfl, -⟩ | ⟨-, -, -, he⟩ := accept_cases w s
  · exact absurd hw (by decide)
  · exact absurd hw (by decide)
  · exact absurd hw (by decide)
  · exact he

/-- Acceptance of a word other than NOP sees the state after the clearing alone (41_commands.md R66). -/
theorem accept_clearStatus {w : Word} (hw : w ≠ 0) (s : State) : accept w s.clearStatus = accept w s := by
  have tail (u : State) : accept w u =
      if w = cmdWrap then acceptWrap u else if w = cmdUnwrap then acceptUnwrap u else acceptIllegal u := if_neg hw
  rw [tail, tail]
  rfl

/-- An idle engine is started by nothing but the acceptance of a legal command, after the clearing (41_commands.md R66). -/
theorem HostUpdate.status_of_started {i : Instr} {u : State} (hu : HostUpdate i s u) (idle : s.busy = false)
    (started : u.busy = true) : u.done = false ∧ u.err = .none ∧ u.outlen = 0 := by
  cases hu with
  | wrapStarted | unwrapStarted => exact ⟨rfl, rfl, rfl⟩
  | commandFailed => exact nomatch started
  | unchanged | statusWritten | irqEnWritten | lenWritten | bufWritten => exact nomatch idle.symm.trans started

theorem State.irq_of_not_done (hdone : s.done = false) : s.irq = false := by
  rw [State.irq, hdone, Bool.false_and]

/-- A command that fails at acceptance leaves an idle engine with its code alone (60_exceptions.md R96). -/
theorem State.complete_clearStatus_of_idle (idle : s.busy = false) (e : ErrCode) :
    s.clearStatus.complete e 0 = { s with done := true, err := e, outlen := 0 } := by
  have hphase : s.phase = .idle := State.busy_eq_false_iff.1 idle
  rw [State.complete, State.clearStatus, ← hphase]

end

/-! ## The bytes of A after the start of WRAP -/

theorem halfBytes_iv : halfBytes iv = List.replicate 8 0xA6 := by decide

section
variable (s : State) {k : Nat}

/-- WRAP's start puts the IV into A (41_commands.md R70). -/
theorem bufByte_startWrap_of_lt (hk : k < 8) : (startWrap s).bufByte k = 0xA6 := by
  have hin : 0 ≤ k ∧ k < 0 + (List.replicate 8 (0xA6 : Byte)).length := by
    rw [List.length_replicate]
    omega
  calc (startWrap s).bufByte k
    _ = (s.storeBytes 0 (List.replicate 8 0xA6)).bufByte k := by rw [← halfBytes_iv]; rfl
    _ = 0xA6 := by rw [State.bufByte_storeBytes, dif_pos hin, List.getElem_replicate]

/-- WRAP's start keeps every key block (41_commands.md R70). -/
theorem bufByte_startWrap_of_le (hk : 8 ≤ k) : (startWrap s).bufByte k = s.bufByte k :=
  s.bufByte_storeBytes_frame (a := 0) (bs := halfBytes iv) (by rw [halfBytes_length]; omega)

end

/-! ## Commands on an idle engine -/

section
variable {s : State} (hr : s.rstN = true) (idle : s.busy = false)
include hr idle

/-- A command that fails at acceptance, answered OKAY (41_commands.md R67 to R69). -/
theorem exec_command_failed {i : Instr} {f : State → State} {e : ErrCode} (hi : effectOf i = writeIdle f)
    (hf : f s = s.clearStatus.complete e 0) :
    exec i s = .next { s with done := true, err := e, outlen := 0, response := some ⟨none, .okay⟩ } := by
  rw [exec_writeIdle_idle hr hi idle, hf, State.complete_clearStatus_of_idle idle]
  rfl

/-- A legal WRAP starts (41_commands.md R70). -/
theorem exec_wrap_starts (hok : wrapLenOK s.nMax s.len = true) :
    exec .wrap s = .next ((startWrap s.clearStatus).respond none .okay) := by
  rw [exec_writeIdle_idle hr rfl idle, acceptWrap, if_pos hok]

/-- A legal UNWRAP starts (41_commands.md R71). -/
theorem exec_unwrap_starts (hok : unwrapLenOK s.nMax s.len = true) :
    exec .unwrap s = .next ((startUnwrap s.clearStatus).respond none .okay) := by
  rw [exec_writeIdle_idle hr rfl idle, acceptUnwrap, if_pos hok]

end

/-- The row ILLEGAL is the write of its word, whatever its operands are (log 18). -/
theorem exec_illegal_eq_wrCmd (opc : BitVec 4) (mbz : BitVec 28) (s : State) :
    exec (.illegal opc mbz) s = exec (.wrCmd (mbz ++ opc)) s := rfl

/-! ## The statements -/

/-- Settles O34: both states are the same after the clearing, which is all that acceptance sees of them. -/
theorem acceptanceForgetsTheLastResult : Obligations.AcceptanceForgetsTheLastResult := by
  intro s w done err outlen hr idle hw
  have forgets : accept w { s with done := done, err := err, outlen := outlen } = accept w s :=
    calc accept w { s with done := done, err := err, outlen := outlen }
      _ = accept w s.clearStatus := (accept_clearStatus hw _).symm
      _ = accept w s := accept_clearStatus hw s
  refine ⟨(accept w s).respond none .okay, exec_writeIdle_idle hr rfl idle, ?_, fun started => ?_⟩
  · rw [← forgets]
    exact exec_writeIdle_idle hr rfl idle
  · have update : HostUpdate (.wrCmd w) s (accept w s) := accept_update w idle
    obtain ⟨hdone, herr, hlen⟩ := update.status_of_started idle started
    exact ⟨hdone, herr, hlen, State.irq_of_not_done hdone⟩

/-- Settles O37: the start of WRAP after the clearing, by its block count, the IV's bytes and its frame. -/
theorem legalWrapStarts : Obligations.LegalWrapStarts := by
  intro s hr idle hcap hlo hmod hhi
  have hok : wrapLenOK s.nMax s.len = true := wrapLenOK_iff.2 ⟨hlo, hmod, hhi⟩
  have hlen : s.len.toNat = 8 * (wrapBlocks s.len).toNat := (wrapBlocks_toNat ⟨by omega, hcap⟩ hok).2.2
  have hblocks : (wrapBlocks s.len).toNat = s.len.toNat / 8 := by omega
  exact ⟨_, exec_wrap_starts hr idle hok, hblocks, fun _ => bufByte_startWrap_of_lt s.clearStatus,
    fun _ => bufByte_startWrap_of_le s.clearStatus, rfl⟩

/-- Settles O32: by whether the engine is busy. -/
theorem nopHasNoEffect : Obligations.NopHasNoEffect := fun _ hr =>
  ⟨exec_writeIdle_idle (f := acceptNop) hr rfl, exec_writeIdle_busy hr rfl⟩

/-- Settles O33: the words in question are those above 2, and well-formed operands of ILLEGAL make up such a word. -/
theorem illegalWordsCompleteWithError : Obligations.IllegalWordsCompleteWithError := by
  intro s hr idle
  have fails (w : Word) (hw : 3 ≤ w.toNat) : exec (.wrCmd w) s =
      .next { s with done := true, err := .illegalCommand, outlen := 0, response := some ⟨none, .okay⟩ } :=
    exec_command_failed hr idle rfl (accept_of_three_le hw s)
  refine ⟨fun w h0 h1 h2 => fails w (by bv_omega), fun opc mbz hwf => ?_⟩
  rw [exec_illegal_eq_wrCmd]
  exact fails _ ((wfIllegal_iff opc mbz).1 hwf)

/-- Settles O35, by the length check. -/
theorem wrapChecksItsLength : Obligations.WrapChecksItsLength := by
  intro s hr idle
  rw [← wrapLenOK_iff]
  exact ⟨fun bad => exec_command_failed hr idle rfl (if_neg bad), fun hok => ⟨_, exec_wrap_starts hr idle hok, rfl⟩⟩

/-- Settles O36, by the length check. -/
theorem unwrapChecksItsLength : Obligations.UnwrapChecksItsLength := by
  intro s hr idle
  rw [← unwrapLenOK_iff]
  exact ⟨fun bad => exec_command_failed hr idle rfl (if_neg bad), fun hok => ⟨_, exec_unwrap_starts hr idle hok, rfl⟩⟩

/-- Settles O38: the start of UNWRAP after the clearing, by its block count, its round count and its frame. -/
theorem legalUnwrapStarts : Obligations.LegalUnwrapStarts := by
  intro s hr idle hcap hlo hmod hhi
  have hok : unwrapLenOK s.nMax s.len = true := unwrapLenOK_iff.2 ⟨hlo, hmod, hhi⟩
  have hlen : s.len.toNat = 8 * ((unwrapBlocks s.len).toNat + 1) := (unwrapBlocks_toNat ⟨by omega, hcap⟩ hok).2.2
  have hblocks : (unwrapBlocks s.len).toNat = s.len.toNat / 8 - 1 := by omega
  exact ⟨_, exec_unwrap_starts hr idle hok, hblocks, roundCount_toNat _, rfl⟩

/-- Settles O60: outside BUF both accesses are refused at the offset check, and the other rows do not look at their operands
as the bus decodes them. -/
theorem rowsWithOperandsNoBitsDecodeTo : Obligations.RowsWithOperandsNoBitsDecodeTo := by
  intro s hr
  refine ⟨fun off hoff => ⟨?_, fun data => ?_⟩, fun size write off data => ?_,
    fun opc mbz => exec_illegal_eq_wrCmd opc mbz s⟩
  · rw [exec_eq_next hr, effectOf, readBuf, if_neg (ne_true_of_eq_false hoff)]
    rfl
  · rw [exec_eq_next hr, effectOf, writeBuf, if_neg (ne_true_of_eq_false hoff)]
    rfl
  · rw [exec_eq_next hr, effectOf]
    cases write <;> rfl

end Sys2Proof.Machine
end

section
/-! The cipher port (42_cipher_routing.md): the counter encoder (O39), and a command whose cipher never answers (O47). -/

namespace Sys2Proof.Machine

/-! ## The counter encoder -/

/-- A value of eight bytes by its two words, each with its first byte most significant (00_scope.md R8). -/
theorem halfOfBytes_eq_append (b0 b1 b2 b3 b4 b5 b6 b7 : Byte) :
    halfOfBytes b0 b1 b2 b3 b4 b5 b6 b7 = le32 b3 b2 b1 b0 ++ le32 b7 b6 b5 b4 := by
  have words : b0 ++ b1 ++ b2 ++ b3 ++ b4 ++ b5 ++ b6 ++ b7 = (b0 ++ b1 ++ b2 ++ b3) ++ (b4 ++ b5 ++ b6 ++ b7) := by
    simp only [BitVec.append_assoc, BitVec.cast_eq]
  exact words

theorem le32_xor_le32 (b0 b1 b2 b3 c0 c1 c2 c3 : Byte) :
    le32 b0 b1 b2 b3 ^^^ le32 c0 c1 c2 c3 = le32 (b0 ^^^ c0) (b1 ^^^ c1) (b2 ^^^ c2) (b3 ^^^ c3) := by
  have bytes : (b3 ++ b2 ++ b1 ++ b0) ^^^ (c3 ++ c2 ++ c1 ++ c0) =
      (b3 ^^^ c3) ++ (b2 ^^^ c2) ++ (b1 ^^^ c1) ++ (b0 ^^^ c0) := by
    simp only [BitVec.xor_append]
  exact bytes

/-- The counter goes into the last four bytes alone (42_cipher_routing.md R77). -/
theorem ctr_append (hi lo t : BitVec 32) : ctr (hi ++ lo) t = hi ++ (lo ^^^ t) := by
  rw [ctr, BitVec.extractLsb'_append_eq_left, BitVec.extractLsb'_append_eq_right]

theorem ctr_ctr (x : Half) (t : BitVec 32) : ctr (ctr x t) t = x := by
  have words : x.extractLsb' 32 32 ++ x.extractLsb' 0 32 = x :=
    (BitVec.extractLsb'_append_extractLsb'_eq_extractLsb' rfl).trans BitVec.extractLsb'_eq_self
  rw [← words, ctr_append, ctr_append, BitVec.xor_assoc, BitVec.xor_self, BitVec.xor_zero]

/-- Settles O39: the counter is taken as its four bytes, which meet the value's last word byte by byte. -/
theorem counterIsEncodedBigEndian : Obligations.CounterIsEncodedBigEndian := by
  intro x0 x1 x2 x3 x4 x5 x6 x7 x t
  refine ⟨?_, ctr_ctr x t, by decide⟩
  calc
    ctr (halfOfBytes x0 x1 x2 x3 x4 x5 x6 x7) t = le32 x3 x2 x1 x0 ++ (le32 x7 x6 x5 x4 ^^^ t) := by
      rw [halfOfBytes_eq_append, ctr_append]
    _ = le32 x3 x2 x1 x0 ++ le32 (x7 ^^^ t.extractLsb' 0 8) (x6 ^^^ t.extractLsb' 8 8) (x5 ^^^ t.extractLsb' 16 8)
          (x4 ^^^ t.extractLsb' 24 8) := by
      rw [← le32_xor_le32, le32_wordBytes]
    _ = _ := (halfOfBytes_eq_append ..).symm

/-! ## A silent cipher -/

/-- The command in progress is the same in both states: they differ at most in what a host may write while the engine is
busy (70_reset_and_hazards.md R111), in the answer on the bus and in the moves to come. -/
def SameCommand (s t : State) : Prop :=
  t = { s with done := t.done, doneIE := t.doneIE, response := t.response, agenda := t.agenda }

/-- A request is outstanding, and no move to come is the cipher's or the reset line's (42_cipher_routing.md R75). -/
structure State.AwaitsSilentCipher (s : State) : Prop where
  outOfReset : s.rstN = true
  inRound : s.phase = .round
  requested : s.creq = true
  silent : ∀ e ∈ s.agenda, e = .engine ∨ ∃ h, e = .host h

section
variable {s t u : State}

theorem SameCommand.trans (hst : SameCommand s t) (htu : SameCommand t u) : SameCommand s u := by
  unfold SameCommand at hst htu ⊢
  rw [htu, hst]

theorem SameCommand.busy (h : SameCommand s t) : t.busy = s.busy := by
  rw [h]
  rfl

/-- While the engine is busy a transaction writes at most DONE and DONE_IE (70_reset_and_hazards.md R111). -/
theorem HostUpdate.sameCommand {i : Instr} (hu : HostUpdate i s u) (busy : s.busy = true) : SameCommand s u := by
  cases hu with
  | unchanged | statusWritten | irqEnWritten => rfl
  | lenWritten _ _ idle | bufWritten _ _ _ idle | wrapStarted idle | unwrapStarted idle | commandFailed _ idle =>
    exact absurd busy (ne_true_of_eq_false idle)

theorem exec_sameCommand (i : Instr) (hr : s.rstN = true) (busy : s.busy = true) :
    ∃ t, exec i s = .next t ∧ SameCommand s t ∧ t.agenda = s.agenda := by
  obtain ⟨u, d, r, hu, he⟩ := effectOf_update i s
  have same : SameCommand u (u.respond d r) := rfl
  obtain ⟨-, -, hagenda, -⟩ := hu.frame
  exact ⟨_, by rw [exec_eq_next hr, he], (hu.sameCommand busy).trans same, hagenda⟩

namespace State.AwaitsSilentCipher
variable (h : s.AwaitsSilentCipher)
include h

theorem busy : s.busy = true := State.busy_eq_true_iff.2 (by simp [h.inRound])

theorem of_sameCommand (same : SameCommand s t) (tail : t.agenda = s.agenda.tail) : t.AwaitsSilentCipher where
  outOfReset := by rw [same]; exact h.outOfReset
  inRound := by rw [same]; exact h.inRound
  requested := by rw [same]; exact h.requested
  silent e he := h.silent e (List.mem_of_mem_tail (tail ▸ he))

theorem engine_or_host_moves : s.agenda.headD .engine = .engine ∨ ∃ w, s.agenda.headD .engine = .host w := by
  cases hagenda : s.agenda with
  | nil => exact .inl rfl
  | cons e rest => exact h.silent e (by simp [hagenda])

/-- The engine's turn waits, and a transaction leaves the command as it is. -/
theorem step_sameCommand : ∃ t, step s = .next t ∧ SameCommand s t ∧ t.agenda = s.agenda.tail := by
  have begun : SameCommand s (s.beginTurn s.agenda.tail) := rfl
  rw [step_eq_turn]
  obtain hmove | ⟨w, hmove⟩ := h.engine_or_host_moves <;> rw [hmove]
  · exact ⟨_, engineTurn_waits h.inRound h.requested, begun, rfl⟩
  · obtain ⟨t, ht, same, hagenda⟩ := exec_sameCommand (s := s.beginTurn s.agenda.tail) (decode s.nMax w)
      h.outOfReset h.busy
    exact ⟨t, ht, begun.trans same, hagenda⟩

end State.AwaitsSilentCipher

theorem State.AwaitsSilentCipher.run_sameCommand (k : Nat) (h : s.AwaitsSilentCipher) :
    ∃ t, Host.Core.run core k s = .next t ∧ SameCommand s t := by
  induction k generalizing s with
  | zero => exact ⟨s, rfl, rfl⟩
  | succ k ih =>
    obtain ⟨t, ht, same, tail⟩ := h.step_sameCommand
    obtain ⟨u, hu, more⟩ := ih (h.of_sameCommand same tail)
    exact ⟨u, (run_succ (M := core) ht k).trans hu, same.trans more⟩

end

/-- Settles O47: each move but the cipher's and the reset line's keeps the command and its request, by induction on the
steps. -/
theorem silentCipherHangsTheEngine : Obligations.SilentCipherHangsTheEngine := by
  intro s k hr hround hreq silent
  have waits : s.AwaitsSilentCipher := ⟨hr, hround, hreq, silent⟩
  obtain ⟨t, hrun, same⟩ := waits.run_sameCommand k
  exact ⟨t, hrun, same.busy.trans waits.busy, same⟩

end Sys2Proof.Machine
end

section
/-! The steps of a running WRAP (43_wrap.md): the request and the answer of a round (O40), the order of the rounds
(O42), the final step (O44), and its start over any A (O53). -/

namespace Sys2Proof.Machine

/-! ## The step of each turn -/

section
variable {s : State} {rest : List Event}

theorem State.EngineMovesNext.step_eq (h : s.EngineMovesNext rest) : step s = engineTurn (s.beginTurn rest) := by
  obtain hcons | ⟨hnil, rfl⟩ := h
  · rw [step_eq_turn, hcons]
    rfl
  · rw [step_eq_turn, hnil]
    rfl

/-- The engine's turn in ROUND sends the request (42_cipher_routing.md R74). -/
theorem step_issues (h : s.EngineMovesNext rest) (hp : s.phase = .round) (hc : s.creq = false)
    (hb : s.blockOK = true) : step s = .next (issue (s.beginTurn rest)) :=
  h.step_eq.trans (engineTurn_issues hp hc hb)

/-- The cipher's answer completes the round (42_cipher_routing.md R74). -/
theorem step_answers {b : Block} (h : s.agenda = .cackWith b :: rest) (hp : s.phase = .round) (hc : s.creq = true)
    (hb : s.blockOK = true) : step s = .next (roundWith b (s.beginTurn rest)) := by
  rw [step_eq_turn, h]
  exact cipherTurn_completes_round b hc hp hb

/-- The engine's turn in FINAL ends the command. -/
theorem step_completes (h : s.EngineMovesNext rest) (hp : s.phase = .final) (hn : s.n.toNat ≤ s.nMax) :
    step s = .next (finalStep (s.beginTurn rest)) :=
  h.step_eq.trans (engineTurn_completes hp hn)

end

section
variable {s : State}

theorem finalStep_wrap (hop : s.op = .wrap) : finalStep s = s.complete .none (s.lenLatched + 8) := by
  rw [finalStep, hop, wrapFinal]

/-! ## A and the key blocks after a round -/

/-- A value of eight bytes is read from BUF's cells and its draws alone. -/
theorem State.half_congr {u : State} (hcells : u.buf = s.buf) (hdraws : u.bufHistory = s.bufHistory) (a : Nat) :
    u.half a = s.half a := by
  simp only [State.half, State.bufByte_congr hcells hdraws]

theorem regA_storeRound (hi : 1 ≤ s.i.toNat) (a r : Half) : (storeRound a r s).regA = a :=
  (State.half_storeHalf_frame _ r (by omega)).trans (State.half_storeHalf s 0 a)

theorem regR_storeRound_same (a r : Half) : (storeRound a r s).regR s.i.toNat = r :=
  State.half_storeHalf (s.storeHalf 0 a) (8 * s.i.toNat) r

theorem regR_storeRound_ne {k : Nat} (hk : 1 ≤ k) (hne : k ≠ s.i.toNat) (a r : Half) :
    (storeRound a r s).regR k = s.regR k :=
  (State.half_storeHalf_frame _ r (by omega)).trans (State.half_storeHalf_frame s a (by omega))

/-- The counter is incremented before it is encoded (43_wrap.md R82). -/
theorem t_roundWith_wrap (hop : s.op = .wrap) (b : Block) : (roundWith b s).t = s.t + 1 := by
  rw [roundWith_wrap b hop, wrapRound_eq]
  rfl

theorem half_roundWith_wrap (hop : s.op = .wrap) (b : Block) (a : Nat) :
    (roundWith b s).half a = (storeRound (ctr (msb8 b) (s.t + 1)) (lsb8 b) s).half a := by
  apply State.half_congr <;> rw [roundWith_wrap b hop, wrapRound_eq] <;> simp

theorem regA_roundWith_wrap (hop : s.op = .wrap) (hi : 1 ≤ s.i.toNat) (b : Block) :
    (roundWith b s).regA = ctr (msb8 b) (s.t + 1) :=
  (half_roundWith_wrap hop b 0).trans (regA_storeRound hi _ _)

theorem regR_roundWith_wrap_same (hop : s.op = .wrap) (b : Block) : (roundWith b s).regR s.i.toNat = lsb8 b :=
  (half_roundWith_wrap hop b _).trans (regR_storeRound_same _ _)

theorem regR_roundWith_wrap_ne (hop : s.op = .wrap) {k : Nat} (hk : 1 ≤ k) (hne : k ≠ s.i.toNat) (b : Block) :
    (roundWith b s).regR k = s.regR k :=
  (half_roundWith_wrap hop b _).trans (regR_storeRound_ne hk hne _ _)

/-- A round writes A and R[i] and no other byte of BUF (43_wrap.md R82, 44_unwrap.md R89). -/
theorem bufByte_roundWith_of_ne (b : Block) {k : Nat} (hA : 8 ≤ k)
    (hR : ¬ (8 * s.i.toNat ≤ k ∧ k < 8 * s.i.toNat + 8)) : (roundWith b s).bufByte k = s.bufByte k := by
  obtain ⟨a, r, t, i, j, p, he⟩ := roundWith_eq b s
  rw [State.bufByte_congr (s := storeRound a r (latch b s)) (by rw [he]) (by rw [he])]
  exact bufByte_storeRound_frame (latch b s) a r hA hR

/-! ## WRAP's `Advance` -/

theorem busy_advanceWrap (hp : s.phase = .round) : (advanceWrap s).busy = true := by
  have next : (nextBlockWrap s).phase = .round := by
    unfold nextBlockWrap
    split <;> exact hp
  unfold advanceWrap
  split
  · rfl
  · exact State.busy_eq_true_iff.2 (by simp [next])

theorem busy_roundWith_wrap (hop : s.op = .wrap) (hp : s.phase = .round) (b : Block) : (roundWith b s).busy = true := by
  rw [roundWith_wrap b hop, wrapRound]
  exact busy_advanceWrap (by simpa using hp)

/-- Where WRAP's `Advance` from block `i` of `n` in round `j` leaves the sequencer (43_wrap.md R83). -/
structure State.WrapAdvancedFrom (t : State) (n i : BitVec 9) (j : BitVec 3) : Prop where
  withinRound : i.toNat < n.toNat → t.i.toNat = i.toNat + 1 ∧ t.j = j ∧ t.phase = .round
  toNextRound : i.toNat = n.toNat →
    t.i.toNat = 1 ∧ t.j.toNat = j.toNat + 1 ∧ t.phase = if j.toNat = 5 then .final else .round

theorem State.InRound.after_advanceWrap (h : s.InRound) : (advanceWrap s).WrapAdvancedFrom s.n s.i s.j := by
  obtain ⟨hp, hj, -, -⟩ := h
  refine ⟨fun hi => ?_, fun hi => ?_⟩
  · rw [advanceWrap_nextBlock hi hj]
    exact ⟨by bv_omega, rfl, hp⟩
  · have hlast : ¬ s.i.toNat < s.n.toNat := by omega
    have hinc : (s.j + 1).toNat = s.j.toNat + 1 := by bv_omega
    by_cases hj5 : s.j.toNat = 5
    · rw [advanceWrap_last hlast hj5, if_pos hj5]
      exact ⟨rfl, hinc, rfl⟩
    · rw [advanceWrap_nextRound hlast (by omega), if_neg hj5]
      exact ⟨rfl, hinc, hp⟩

theorem State.InRound.after_roundWith_wrap (h : s.InRound) (hop : s.op = .wrap) (b : Block) :
    (roundWith b s).WrapAdvancedFrom s.n s.i s.j := by
  rw [roundWith_wrap b hop, wrapRound]
  have stored : State.InRound { storeRound (ctr (msb8 b) (s.t + 1)) (lsb8 b) (latch b s) with t := s.t + 1 } := by
    simpa [State.InRound] using h
  simpa using stored.after_advanceWrap

/-- The round at (j, i) encodes t = n*j + i (43_wrap.md R83). -/
theorem State.Inv.t_roundWith_wrap (h : s.Inv) (hop : s.op = .wrap) (hp : s.phase = .round) (b : Block) :
    (roundWith b s).t.toNat = s.n.toNat * s.j.toNat + s.i.toNat := by
  have hlt := (h.inRound hp).counter_lt
  have ht := h.roundWrap hp hop
  rw [Machine.t_roundWith_wrap hop b]
  bv_omega

/-- The sequencer of a running command names a block of BUF (10_state.md R27). -/
theorem State.Inv.blockOK (h : s.Inv) (hp : s.phase = .round) : s.blockOK = true := by
  obtain ⟨-, hi, hin⟩ := h.roundRange hp
  exact State.blockOK_iff.2 ⟨hi, hin, (h.busyBlocks (State.busy_eq_true_iff.2 (by simp [hp]))).2⟩

end

/-! ## The statements -/

/-- Settles O40: the request by the turn's block, CIPHER's answer by the latches, any answer by what a round writes. -/
theorem wrapRoundFollowsItsRule : Obligations.WrapRoundFollowsItsRule := by
  intro s rest hp hop hi hin hn
  have hb : s.blockOK = true := State.blockOK_iff.2 ⟨hi, hin, hn⟩
  refine ⟨fun hc hmove => ?_, fun hc hdir hcin hagenda => ?_, fun b hc hagenda => ?_⟩
  · have request : cipherInput (s.beginTurn rest) = s.regA ++ s.regR s.i.toNat := by
      rw [cipherInput, State.beginTurn_op, hop]
      rfl
    rw [step_issues hmove hp hc hb, issue, request, State.beginTurn_op, hop]
    rfl
  · have answer : cipherAnswer Config.cipher s = Config.cipher.encrypt (s.regA ++ s.regR s.i.toNat) := by
      rw [cipherAnswer, hdir, hcin]
      rfl
    rw [← answer, step_eq_turn, hagenda]
    rfl
  · have begun : (s.beginTurn rest).op = .wrap := hop
    obtain ⟨m, t, i, j, p, frame⟩ := roundWith_frame b (s.beginTurn rest)
    refine ⟨_, step_answers hagenda hp hc hb, busy_roundWith_wrap begun hp b, t_roundWith_wrap begun b,
      regA_roundWith_wrap begun hi b, regR_roundWith_wrap_same begun b,
      fun k => bufByte_roundWith_of_ne (s := s.beginTurn rest) b, ?_⟩
    rw [frame]
    rfl

/-- Settles O42, by the cases of `Advance` and the counter's place in the invariant. -/
theorem wrapRoundsRunInOrder : Obligations.WrapRoundsRunInOrder := by
  intro s b rest h hop hc hagenda
  have hp : s.phase = .round := (h.request hc).1
  have begun : (s.beginTurn rest).Inv := h.beginTurn rest
  obtain ⟨withinRound, toNextRound⟩ := (begun.inRound hp).after_roundWith_wrap hop b
  exact ⟨_, step_answers hagenda hp hc (h.blockOK hp), begun.t_roundWith_wrap hop hp b, withinRound, toNextRound⟩

/-- Settles O44: the final step of WRAP is `complete(NONE, L + 8)`. -/
theorem wrapFinalCompletes : Obligations.WrapFinalCompletes := by
  intro s rest hp hop hn hmove
  rw [step_completes hmove hp hn, finalStep_wrap (s := s.beginTurn rest) hop]
  rfl

/-- Settles O53: the start of WRAP puts the IV into A, whatever A held, and keeps every other byte. -/
theorem wrapIgnoresStaleA : Obligations.WrapIgnoresStaleA := by
  intro s a hr idle hok
  refine ⟨_, _, exec_wrap_starts hr idle hok, exec_wrap_starts (s := s.storeHalf 0 a) hr idle hok, fun k => ?_, ?_⟩
  · simp only [State.bufByte_respond]
    by_cases hk : k < 8
    · rw [bufByte_startWrap_of_lt _ hk, bufByte_startWrap_of_lt _ hk]
    · rw [bufByte_startWrap_of_le _ (by omega), bufByte_startWrap_of_le _ (by omega)]
      exact s.bufByte_storeBytes_frame (by rw [halfBytes_length]; omega)
  · simp [startWrap, State.respond]

end Sys2Proof.Machine
end

section
/-! The rounds of a whole command, of WRAP and of UNWRAP alike: how many are left, what one leaves unchanged, and the
runs over them (43_wrap.md R84); with them, the number of steps of a WRAP (O54). -/

namespace Sys2Proof.Machine

/-- A command runs, and none of its requests is outstanding. -/
structure State.BetweenRounds (s : State) : Prop where
  inv : s.Inv
  busy : s.busy = true
  noRequest : s.creq = false

/-- How many answers a running command still needs (42_cipher_routing.md R80). -/
def State.roundsLeft (s : State) : Nat :=
  match s.op with
  | .wrap => 6 * s.n.toNat - s.t.toNat
  | .unwrap => s.t.toNat

/-- A whole round: the request, and the answer `b` to it (42_cipher_routing.md R74, log 6). -/
def State.afterRound (b : Block) (s : State) : State := roundWith b (issue s)

/-- What a run over rounds leaves unchanged: every register but the sequencer's position and the cipher's latches, and
the bytes above the command's blocks (43_wrap.md R86, 44_unwrap.md R93). -/
structure State.RoundsLeadTo (s t : State) : Prop where
  registers : t = { s with
    buf := t.buf, t := t.t, i := t.i, j := t.j, phase := t.phase, creq := t.creq, cdir := t.cdir, cin := t.cin,
    cout := t.cout, agenda := t.agenda, response := t.response }
  bytesAbove : SameFrom (8 * (s.n.toNat + 1)) s t

section
variable {s t u : State}

theorem State.RoundsLeadTo.refl (s : State) : s.RoundsLeadTo s := ⟨rfl, fun _ _ => rfl⟩

/-- The registers that a statement about a command reads. -/
theorem State.RoundsLeadTo.kept (h : s.RoundsLeadTo t) :
    t.n = s.n ∧ t.op = s.op ∧ t.len = s.len ∧ t.lenLatched = s.lenLatched := by
  rw [h.registers]
  exact ⟨rfl, rfl, rfl, rfl⟩

theorem State.RoundsLeadTo.trans (hst : s.RoundsLeadTo t) (htu : t.RoundsLeadTo u) : s.RoundsLeadTo u := by
  obtain ⟨hn, -⟩ := hst.kept
  refine ⟨?_, fun k hk => ?_⟩
  · rw [htu.registers, hst.registers]
  · rw [htu.bytesAbove k (by rwa [hn]), hst.bytesAbove k hk]

/-- The environment's part of the state is none of the command's. -/
theorem State.RoundsLeadTo.beginTurn (s : State) (rest : List Event) : s.RoundsLeadTo (s.beginTurn rest) :=
  ⟨rfl, fun _ _ => rfl⟩

theorem State.agenda_afterRound (b : Block) (s : State) : (s.afterRound b).agenda = s.agenda := by
  obtain ⟨m, t, i, j, p, frame⟩ := roundWith_frame b (issue s)
  rw [State.afterRound, frame, issue_agenda]

theorem State.PositionOK.busy (h : s.PositionOK) : s.busy = true := by
  refine State.busy_eq_true_iff.2 ?_
  cases h with
  | wrapRound _ h | unwrapRound _ h => simp [h.1]
  | wrapFinal _ hp | unwrapFinal _ hp => simp [hp]

theorem t_roundWith_unwrap (hop : s.op = .unwrap) (b : Block) : (roundWith b s).t = s.t - 1 := by
  rw [roundWith_unwrap b hop, unwrapRound_eq]
  rfl

/-- A command is in its rounds exactly while some are left (43_wrap.md R84). -/
theorem State.BetweenRounds.phase_eq (h : s.BetweenRounds) :
    s.phase = if s.roundsLeft = 0 then .final else .round := by
  cases hp : s.phase with
  | idle => exact absurd hp (State.busy_eq_true_iff.1 h.busy)
  | round =>
    have hround := h.inv.inRound hp
    have hmul : s.n.toNat * s.j.toNat ≤ s.n.toNat * 5 := Nat.mul_le_mul_left _ hround.2.1
    obtain ⟨-, -, hi, hin⟩ := hround
    refine (if_neg ?_).symm
    cases hop : s.op with
    | wrap =>
      have ht := h.inv.roundWrap hp hop
      simp only [State.roundsLeft, hop]
      omega
    | unwrap =>
      have ht := h.inv.roundUnwrap hp hop
      simp only [State.roundsLeft, hop]
      omega
  | final =>
    refine (if_pos ?_).symm
    cases hop : s.op with
    | wrap => simp [State.roundsLeft, hop, h.inv.finalWrap hp hop]
    | unwrap => simp [State.roundsLeft, hop, h.inv.finalUnwrap hp hop]

theorem State.BetweenRounds.beginTurn (h : s.BetweenRounds) (rest : List Event) : (s.beginTurn rest).BetweenRounds :=
  ⟨h.inv.beginTurn rest, h.busy, h.noRequest⟩

end

/-! ## One round -/

theorem run_step {s t : State} (h : step s = .next t) (count : Nat) :
    Host.Core.run core (count + 1) s = Host.Core.run core count t :=
  run_succ (M := core) h count

section
variable {s : State} (h : s.BetweenRounds) (hp : s.phase = .round)
include h hp

theorem State.BetweenRounds.afterRound (b : Block) : (s.afterRound b).BetweenRounds := by
  have sent : (issue s).Inv := h.inv.after_issue hp
  obtain ⟨m, t, i, j, p, frame⟩ := roundWith_frame b (issue s)
  exact ⟨sent.after_round hp (sent.blockOK hp) b, (sent.position_after_round hp b).busy,
    by rw [State.afterRound, frame]⟩

theorem State.BetweenRounds.roundsLeadTo_afterRound (b : Block) : s.RoundsLeadTo (s.afterRound b) := by
  obtain ⟨m, t, i, j, p, frame⟩ := roundWith_frame b (issue s)
  refine ⟨by rw [State.afterRound, frame]; rfl, fun k hk => ?_⟩
  exact bufByte_roundWith_frame (s := issue s) b (h.inv.blockOK hp) hk

/-- Each round takes one of the answers that a command needs (43_wrap.md R84). -/
theorem State.BetweenRounds.roundsLeft_afterRound (b : Block) : (s.afterRound b).roundsLeft + 1 = s.roundsLeft := by
  have left : s.roundsLeft ≠ 0 := fun hzero => by simpa [hp, hzero] using h.phase_eq
  obtain ⟨hn, hop', -⟩ := (h.roundsLeadTo_afterRound hp b).kept
  cases hop : s.op with
  | wrap =>
    have ht : (s.afterRound b).t = s.t + 1 := t_roundWith_wrap (s := issue s) hop b
    simp only [State.roundsLeft, hop, hop', hn, ht] at left ⊢
    bv_omega
  | unwrap =>
    have ht : (s.afterRound b).t = s.t - 1 := t_roundWith_unwrap (s := issue s) hop b
    simp only [State.roundsLeft, hop, hop', ht] at left ⊢
    bv_omega

theorem State.BetweenRounds.step_requests {rest : List Event} (hmove : s.EngineMovesNext rest) :
    step s = .next (issue (s.beginTurn rest)) :=
  step_issues hmove hp h.noRequest (h.inv.blockOK hp)

theorem State.BetweenRounds.step_answered (b : Block) (rest : List Event) :
    step (issue (s.beginTurn (.cackWith b :: rest))) = .next ((s.beginTurn rest).afterRound b) :=
  step_answers rfl hp rfl (h.inv.blockOK hp)

theorem State.BetweenRounds.run_round {b : Block} {rest : List Event}
    (hagenda : s.agenda = .engine :: .cackWith b :: rest) (count : Nat) :
    Host.Core.run core (count + 2) s = Host.Core.run core count ((s.beginTurn rest).afterRound b) :=
  (run_step (h.step_requests hp (.inl hagenda)) (count + 1)).trans (run_step (h.step_answered hp b rest) count)

end

/-! ## The moves of a command -/

/-- Between the rounds of a command, with the moves to its end on the agenda and `rest` after them. -/
structure State.RunsThrough (s : State) (answers : List Block) (rest : List Event) : Prop where
  between : s.BetweenRounds
  enough : answers.length = s.roundsLeft
  moves : s.agenda = commandMoves answers ++ rest

section
variable {s : State} {b : Block} {answers : List Block} {rest : List Event}

theorem State.RunsThrough.phase_round (h : s.RunsThrough (b :: answers) rest) : s.phase = .round := by
  rw [h.between.phase_eq, ← h.enough]
  rfl

theorem State.RunsThrough.phase_final (h : s.RunsThrough [] rest) : s.phase = .final := by
  rw [h.between.phase_eq, ← h.enough]
  rfl

/-- One round of the run: what it is, and that the run goes on from it. -/
theorem State.RunsThrough.round (h : s.RunsThrough (b :: answers) rest) :
    ∃ t, (∀ count, Host.Core.run core (count + 2) s = Host.Core.run core count t) ∧
      s.RoundsLeadTo t ∧ t.RunsThrough answers rest := by
  have hp : s.phase = .round := h.phase_round
  obtain ⟨between, enough, moves⟩ := h
  have begun := between.beginTurn (commandMoves answers ++ rest)
  have left : ((s.beginTurn (commandMoves answers ++ rest)).afterRound b).roundsLeft + 1 = s.roundsLeft :=
    begun.roundsLeft_afterRound hp b
  exact ⟨_, between.run_round hp moves,
    (State.RoundsLeadTo.beginTurn s _).trans (begun.roundsLeadTo_afterRound hp b), begun.afterRound hp b,
    Nat.succ.inj (enough.trans left.symm), agenda_afterRound _ _⟩

/-- After each move of the rounds the engine is busy. -/
theorem State.RunsThrough.run_busy (h : s.RunsThrough answers rest) {k : Nat} (hk : k ≤ 2 * answers.length) :
    ∃ u, Host.Core.run core k s = .next u ∧ State.busy u = true := by
  induction answers generalizing s k with
  | nil =>
    obtain rfl : k = 0 := by simpa using hk
    exact ⟨s, rfl, h.between.busy⟩
  | cons b answers ih =>
    match k with
    | 0 => exact ⟨s, rfl, h.between.busy⟩
    | 1 =>
      exact ⟨_, run_step (h.between.step_requests h.phase_round (.inl h.moves)) 0, h.between.busy⟩
    | k + 2 =>
      obtain ⟨t, hrun, -, ht⟩ := h.round
      obtain ⟨u, hu, busy⟩ := ih ht (k := k) (by rw [List.length_cons] at hk; omega)
      exact ⟨u, (hrun k).trans hu, busy⟩

/-- The rounds lead to the final step. -/
theorem State.RunsThrough.run_rounds (h : s.RunsThrough answers rest) (count : Nat) :
    ∃ t, Host.Core.run core (2 * answers.length + count) s = Host.Core.run core count t ∧
      s.RoundsLeadTo t ∧ t.RunsThrough [] rest := by
  induction answers generalizing s with
  | nil => exact ⟨s, by rw [List.length_nil, Nat.mul_zero, Nat.zero_add], .refl s, h⟩
  | cons b answers ih =>
    obtain ⟨t, hrun, first, ht⟩ := h.round
    obtain ⟨u, hu, more, hu'⟩ := ih ht
    refine ⟨u, ?_, first.trans more, hu'⟩
    rw [← hu, ← hrun, List.length_cons]
    congr 1
    omega

/-- The whole command: its rounds, and the final step after them. -/
theorem State.RunsThrough.run_command (h : s.RunsThrough answers rest) :
    ∃ t, Host.Core.run core (2 * answers.length + 1) s = .next (finalStep t) ∧
      s.RoundsLeadTo t ∧ t.BetweenRounds ∧ t.agenda = rest := by
  obtain ⟨t, hrun, lead, ht⟩ := h.run_rounds 1
  have hn : t.n.toNat ≤ t.nMax := (ht.between.inv.busyBlocks ht.between.busy).2
  have last := step_completes (.inl ht.moves) ht.phase_final hn
  exact ⟨t.beginTurn rest, hrun.trans (run_step last 0), lead.trans (.beginTurn t rest),
    ht.between.beginTurn rest, rfl⟩

end

/-- Settles O54: by the run over any answers, whose number the invariant gives at the first round. -/
theorem wrapTakesSixNRounds : Obligations.WrapTakesSixNRounds := by
  intro s answers rest hinv hop hp hc hj hi hlen hagenda
  have busy : s.busy = true := State.busy_eq_true_iff.2 (by simp [hp])
  have ht : s.t.toNat = 0 := by simpa [hj, hi] using hinv.roundWrap hp hop
  have left : s.roundsLeft = 6 * s.n.toNat := by simp [State.roundsLeft, hop, ht]
  have through : s.RunsThrough answers rest := ⟨⟨hinv, busy, hc⟩, hlen.trans left.symm, hagenda⟩
  have moves : 12 * s.n.toNat = 2 * answers.length := by omega
  obtain ⟨t, hrun, lead, -, htail⟩ := through.run_command
  obtain ⟨-, hop', hlen', hlatched⟩ := lead.kept
  rw [finalStep_wrap (hop'.trans hop), hlatched, ← moves] at hrun
  exact ⟨fun k hk => through.run_busy (hk.trans_eq moves), _, hrun, rfl, rfl, rfl, rfl, hlen', htail, lead.bytesAbove⟩

end Sys2Proof.Machine
end

section
/-! A WRAP served by one cipher (70_reset_and_hazards.md R112): its rounds are those of the source's loops (O56). -/

namespace Sys2Proof.Machine

/-! ## The moves of a served command -/

section
variable {c : Cipher} {s t : State}

theorem serve_add {a : Nat} (h : serve c a s = .next t) (b : Nat) : serve c (a + b) s = serve c b t := by
  induction a generalizing s with
  | zero =>
    obtain rfl : s = t := Host.Outcome.next.inj h
    rw [Nat.zero_add]
  | succ a ih =>
    rw [Nat.add_right_comm]
    rw [serve] at h ⊢
    split at h
    · exact ih h
    · cases h
    · cases h

theorem serve_one (h : step { s with agenda := [nextMove c s] } = .next t) : serve c 1 s = .next t := by
  rw [serve, h]
  rfl

/-- Between rounds the engine moves next. -/
theorem State.BetweenRounds.nextMove_eq (h : s.BetweenRounds) (c : Cipher) : nextMove c s = .engine := by
  simp [nextMove, h.noRequest]

/-- A served round is the request and the cipher's answer to it. -/
theorem State.BetweenRounds.serve_round (h : s.BetweenRounds) (hp : s.phase = .round) (c : Cipher) :
    serve c 2 s = .next ((s.beginTurn []).afterRound (cipherAnswer c (issue s))) := by
  have sent : serve c 1 s = .next (issue (s.beginTurn [])) := by
    apply serve_one
    rw [h.nextMove_eq c]
    exact step_issues (.inl rfl) hp h.noRequest (h.inv.blockOK hp)
  rw [serve_add sent 1]
  exact serve_one (h.step_answered hp (cipherAnswer c (issue s)) [])

/-- After the last round the served command takes its final step. -/
theorem State.BetweenRounds.serve_final (h : s.BetweenRounds) (hp : s.phase = .final) (c : Cipher) :
    serve c 1 s = .next (finalStep (s.beginTurn [])) := by
  apply serve_one
  rw [h.nextMove_eq c]
  exact step_completes (.inl rfl) hp (h.inv.busyBlocks h.busy).2

/-! ## The blocks of BUF -/

theorem State.blocks_length (s : State) (first count : Nat) : (s.blocks first count).length = count := by
  rw [State.blocks, List.length_map, List.length_range]

theorem State.blocks_succ (s : State) (first count : Nat) :
    s.blocks first (count + 1) = s.regR first :: s.blocks (first + 1) count := by
  simp [State.blocks, List.range_succ_eq_map, Function.comp_def, Nat.add_assoc, Nat.add_comm 1]

theorem State.blocks_congr {first count : Nat} (h : ∀ k, first ≤ k → k < first + count → t.regR k = s.regR k) :
    t.blocks first count = s.blocks first count :=
  List.map_congr_left fun k hk => h (first + k) (by omega) (by have := List.mem_range.1 hk; omega)

end

/-! ## The rounds of a served WRAP -/

/-- The source's rounds 0 to `j - 1` of WRAP on `n` blocks, from A and the blocks in `x` (43_wrap.md R81). -/
def rfcWrapPasses (enc : Block → Block) (n j : Nat) (x : Half × List Half) : Half × List Half :=
  (List.range j).foldl (fun x j => rfcWrapPass enc (n * j) x.1 x.2) x

theorem rfcWrapPasses_succ (enc : Block → Block) (n j : Nat) (x : Half × List Half) :
    rfcWrapPasses enc n (j + 1) x =
      rfcWrapPass enc (n * j) (rfcWrapPasses enc n j x).1 (rfcWrapPasses enc n j x).2 := by
  rw [rfcWrapPasses, List.range_succ, List.foldl_append]
  rfl

theorem rfcWrap_eq_passes (enc : Block → Block) (p : List Half) :
    rfcWrap enc p = rfcWrapPasses enc p.length 6 (iv, p) := rfl

/-- A round of WRAP in `s`, answered by `c`, leads to `t` (43_wrap.md R82, R83). -/
structure ServedWrapRound (c : Cipher) (s t : State) : Prop where
  served : serve c 2 s = .next t
  between : t.BetweenRounds
  lead : s.RoundsLeadTo t
  advanced : t.WrapAdvancedFrom s.n s.i s.j
  counter : t.t.toNat = s.t.toNat + 1
  newA : t.regA = ctr (msb8 (c.encrypt (s.regA ++ s.regR s.i.toNat))) (BitVec.ofNat 32 (s.t.toNat + 1))
  newR : t.regR s.i.toNat = lsb8 (c.encrypt (s.regA ++ s.regR s.i.toNat))
  otherR : ∀ k, 1 ≤ k → k ≠ s.i.toNat → t.regR k = s.regR k

/-- The sequencer of WRAP stands before round `j`, or before its final step where `j` is 6 (43_wrap.md R83). -/
structure State.StartsWrapRound (s : State) (j : Nat) : Prop where
  block : s.i.toNat = 1
  round : s.j.toNat = j
  phase : s.phase = if j = 6 then .final else .round

theorem State.WrapAdvancedFrom.startsWrapRound {t : State} {n i : BitVec 9} {j : BitVec 3}
    (h : t.WrapAdvancedFrom n i j) (hi : i.toNat = n.toNat) : t.StartsWrapRound (j.toNat + 1) := by
  obtain ⟨hblock, hround, hphase⟩ := h.toNextRound hi
  exact ⟨hblock, hround, by simpa using hphase⟩

section
variable {s : State} (c : Cipher) (h : s.BetweenRounds) (hop : s.op = .wrap)
include h hop

theorem State.BetweenRounds.servedWrapRound (hp : s.phase = .round) : ∃ t, ServedWrapRound c s t := by
  have begun := h.beginTurn []
  have answer : cipherAnswer c (issue s) = c.encrypt (s.regA ++ s.regR s.i.toNat) := by
    rw [cipherAnswer, issue_cdir, issue_cin, cipherInput, hop]
    rfl
  have lead := (State.RoundsLeadTo.beginTurn s []).trans (begun.roundsLeadTo_afterRound hp (cipherAnswer c (issue s)))
  obtain ⟨-, hi, -⟩ := h.inv.roundRange hp
  have sent : (issue (s.beginTurn [])).Inv := begun.inv.after_issue hp
  have hop' : (issue (s.beginTurn [])).op = .wrap := hop
  have hsum := h.inv.roundWrap hp hop
  have incremented : BitVec.ofNat 32 (s.t.toNat + 1) = s.t + 1 := by bv_omega
  refine ⟨_, h.serve_round hp c, begun.afterRound hp _, lead, (sent.inRound hp).after_roundWith_wrap hop' _,
    (sent.t_roundWith_wrap hop' hp _).trans hsum.symm, ?_, ?_, ?_⟩ <;> rw [answer]
  · rw [incremented]
    exact regA_roundWith_wrap hop' hi _
  · exact regR_roundWith_wrap_same hop' _
  · exact fun k hk hne => regR_roundWith_wrap_ne hop' hk hne _

/-- The rounds from block `i` to block `n` are the source's inner loop on those blocks (43_wrap.md R81). -/
theorem State.BetweenRounds.serve_wrap_pass {m : Nat} (hp : s.phase = .round) (hm : s.i.toNat + m = s.n.toNat) :
    ∃ t, serve c (2 * (m + 1)) s = .next t ∧ t.BetweenRounds ∧ s.RoundsLeadTo t ∧
      t.StartsWrapRound (s.j.toNat + 1) ∧ (∀ k, 1 ≤ k → k < s.i.toNat → t.regR k = s.regR k) ∧
      (t.regA, t.blocks s.i.toNat (m + 1)) =
        rfcWrapPass c.encrypt s.t.toNat s.regA (s.blocks s.i.toNat (m + 1)) := by
  induction m generalizing s with
  | zero =>
    obtain ⟨t, first⟩ := h.servedWrapRound c hop hp
    refine ⟨t, first.served, first.between, first.lead, first.advanced.startsWrapRound hm,
      fun k hk hlt => first.otherR k hk (by omega), ?_⟩
    simp only [State.blocks_succ, rfcWrapPass, first.newA, first.newR]
    rfl
  | succ m ih =>
    obtain ⟨t, first⟩ := h.servedWrapRound c hop hp
    obtain ⟨hn, hop', -⟩ := first.lead.kept
    obtain ⟨-, hi, -⟩ := h.inv.roundRange hp
    obtain ⟨hnext, hround, hphase⟩ := first.advanced.withinRound (by omega)
    obtain ⟨u, hserve, between, lead, starts, kept, loop⟩ :=
      ih first.between (hop'.trans hop) hphase (by rw [hnext, hn]; omega)
    have unread : t.blocks (s.i.toNat + 1) (m + 1) = s.blocks (s.i.toNat + 1) (m + 1) :=
      State.blocks_congr fun k hk _ => first.otherR k (by omega) (by omega)
    rw [hnext, unread, first.counter, first.newA] at loop
    refine ⟨u, ?_, between, first.lead.trans lead, by rwa [hround] at starts, fun k hk hlt => ?_, ?_⟩
    · rw [← hserve, ← serve_add first.served]
      congr 1
      omega
    · rw [kept k hk (by omega), first.otherR k hk (by omega)]
    · rw [s.blocks_succ, u.blocks_succ, kept _ hi (by omega), first.newR, rfcWrapPass, ← loop]

/-- The first `j` rounds are the source's outer loop (43_wrap.md R81). -/
theorem State.BetweenRounds.serve_wrap_passes (hstart : s.StartsWrapRound 0) {j : Nat} (hj : j ≤ 6) :
    ∃ t, serve c (2 * s.n.toNat * j) s = .next t ∧ t.BetweenRounds ∧ s.RoundsLeadTo t ∧ t.StartsWrapRound j ∧
      (t.regA, t.blocks 1 s.n.toNat) = rfcWrapPasses c.encrypt s.n.toNat j (s.regA, s.blocks 1 s.n.toNat) := by
  induction j with
  | zero => exact ⟨s, rfl, h, .refl s, hstart, rfl⟩
  | succ j ih =>
    obtain ⟨t, hserve, between, lead, starts, loops⟩ := ih (by omega)
    obtain ⟨hn, hop', -⟩ := lead.kept
    have hp : t.phase = .round := by rw [starts.phase, if_neg (by omega)]
    have hblocks := between.inv.busyBlocks between.busy
    have hsum := between.inv.roundWrap hp (hop'.trans hop)
    rw [hn] at hblocks
    rw [starts.block, starts.round, hn] at hsum
    obtain ⟨u, hpass, between', lead', starts', -, loop⟩ :=
      between.serve_wrap_pass c (hop'.trans hop) (m := s.n.toNat - 1) hp (by rw [starts.block, hn]; omega)
    have count : s.n.toNat - 1 + 1 = s.n.toNat := by omega
    have counter : t.t.toNat = s.n.toNat * j := by omega
    rw [count] at hpass
    rw [starts.round] at starts'
    rw [starts.block, count, counter] at loop
    refine ⟨u, ?_, between', lead.trans lead', starts', ?_⟩
    · rw [Nat.mul_succ, serve_add hserve, hpass]
    · rw [loop, rfcWrapPasses_succ, ← loops]

/-- A served WRAP from its first round: the source's result in BUF, and the final step (43_wrap.md R81, R85). -/
theorem State.BetweenRounds.serve_wrap (hstart : s.StartsWrapRound 0) :
    ∃ t, serve c (12 * s.n.toNat + 1) s = .next (t.complete .none (s.lenLatched + 8)) ∧ s.RoundsLeadTo t ∧
      (t.regA, t.blocks 1 s.n.toNat) = rfcWrapPasses c.encrypt s.n.toNat 6 (s.regA, s.blocks 1 s.n.toNat) := by
  obtain ⟨t, hserve, between, lead, starts, loops⟩ := h.serve_wrap_passes c hop hstart (le_refl 6)
  obtain ⟨-, hop', -, hlatched⟩ := lead.kept
  have last := between.serve_final starts.phase c
  rw [finalStep_wrap (s := t.beginTurn []) (hop'.trans hop), State.beginTurn_lenLatched, hlatched] at last
  have count : 12 * s.n.toNat + 1 = 2 * s.n.toNat * 6 + 1 := by omega
  exact ⟨t.beginTurn [], by rw [count, serve_add hserve, last], lead.trans (.beginTurn t []), loops⟩

end

/-! ## The start of a served WRAP -/

section
variable {s : State}

theorem regA_startWrap (s : State) : (startWrap s).regA = iv := s.half_storeHalf 0 iv

theorem regR_startWrap (s : State) {k : Nat} (hk : 1 ≤ k) : (startWrap s).regR k = s.regR k :=
  s.half_storeHalf_frame iv (by omega)

/-- The state in which an accepted WRAP stands before its first round. -/
theorem State.Inv.betweenRounds_startWrap (h : s.Inv) (hr : s.rstN = true) (idle : s.busy = false)
    (hok : wrapLenOK s.nMax s.len = true) : ((startWrap s.clearStatus).respond none .okay).BetweenRounds :=
  ⟨(h.after_startWrap hr idle hok).respond none .okay, rfl, h.creq_of_idle idle⟩

end

/-- Settles O56: the loops of a served WRAP from the state that acceptance leaves, with the IV in A. -/
theorem wrapComputesRfc3394 : Obligations.WrapComputesRfc3394 := by
  intro c s h hr idle hok n out
  obtain ⟨-, hnMax, hlen⟩ := wrapBlocks_toNat h.capacity hok
  have hn : (wrapBlocks s.len).toNat = n := by omega
  obtain ⟨t, hserve, lead, loops⟩ :=
    (h.betweenRounds_startWrap hr idle hok).serve_wrap c rfl ⟨rfl, rfl, rfl⟩
  obtain ⟨-, -, hkept, -⟩ := lead.kept
  have bytesAbove := lead.bytesAbove
  simp only [State.respond_n, startWrap_n, State.clearStatus_len, hn] at hserve loops bytesAbove
  have ivInA : State.regA ((startWrap s.clearStatus).respond none .okay) = iv := regA_startWrap s.clearStatus
  have plaintext : State.blocks ((startWrap s.clearStatus).respond none .okay) 1 n = s.blocks 1 n :=
    State.blocks_congr fun k hk _ => regR_startWrap s.clearStatus hk
  have result : (t.regA, t.blocks 1 n) = out := by
    rw [loops, ivInA, plaintext]
    simp only [out, rfcWrap_eq_passes, State.blocks_length]
  refine ⟨_, _, exec_wrap_starts hr idle hok, hserve, rfl, rfl, rfl, ?_, hkept, ?_, fun k hk => ?_⟩
  · have hcap := h.capacity.2
    simp only [State.complete_outlen, State.respond_lenLatched, startWrap_lenLatched, State.clearStatus_len]
    bv_omega
  · rw [← result]
    exact t.blocks_succ 0 n
  · exact (bytesAbove k hk).trans (bufByte_startWrap_of_le s.clearStatus (by omega))

end Sys2Proof.Machine
end

section
/-! The steps of a running UNWRAP (44_unwrap.md): the request and the answer of a round (O41), the order of the rounds
(O43), and the final step with its comparison and zeroisation (O45). -/

namespace Sys2Proof.Machine

section
variable {s : State}

/-! ## A and the key blocks after a round -/

theorem half_roundWith_unwrap (hop : s.op = .unwrap) (b : Block) (a : Nat) :
    (roundWith b s).half a = (storeRound (msb8 b) (lsb8 b) s).half a := by
  apply State.half_congr <;> rw [roundWith_unwrap b hop, unwrapRound_eq] <;> simp

theorem regA_roundWith_unwrap (hop : s.op = .unwrap) (hi : 1 ≤ s.i.toNat) (b : Block) :
    (roundWith b s).regA = msb8 b :=
  (half_roundWith_unwrap hop b 0).trans (regA_storeRound hi _ _)

theorem regR_roundWith_unwrap_same (hop : s.op = .unwrap) (b : Block) : (roundWith b s).regR s.i.toNat = lsb8 b :=
  (half_roundWith_unwrap hop b _).trans (regR_storeRound_same _ _)

theorem regR_roundWith_unwrap_ne (hop : s.op = .unwrap) {k : Nat} (hk : 1 ≤ k) (hne : k ≠ s.i.toNat) (b : Block) :
    (roundWith b s).regR k = s.regR k :=
  (half_roundWith_unwrap hop b _).trans (regR_storeRound_ne hk hne _ _)

/-! ## UNWRAP's `Advance` -/

theorem busy_advanceUnwrap (hp : s.phase = .round) : (advanceUnwrap s).busy = true := by
  have next : (nextBlockUnwrap s).phase = .round := by
    unfold nextBlockUnwrap
    split <;> exact hp
  unfold advanceUnwrap
  split
  · rfl
  · exact State.busy_eq_true_iff.2 (by simp [next])

theorem busy_roundWith_unwrap (hop : s.op = .unwrap) (hp : s.phase = .round) (b : Block) :
    (roundWith b s).busy = true := by
  rw [roundWith_unwrap b hop, unwrapRound]
  exact busy_advanceUnwrap (by simpa using hp)

/-- Where UNWRAP's `Advance` from block `i` of `n` in round `j` leaves the sequencer; j = 7 stands for −1
(44_unwrap.md R90, 10_state.md R18). -/
structure State.UnwrapAdvancedFrom (t : State) (n i : BitVec 9) (j : BitVec 3) : Prop where
  withinRound : 1 < i.toNat → t.i.toNat + 1 = i.toNat ∧ t.j = j ∧ t.phase = .round
  toNextRound : i.toNat = 1 → t.i = n ∧
    if j.toNat = 0 then t.phase = .final ∧ t.j = 7 else t.phase = .round ∧ t.j.toNat + 1 = j.toNat

theorem State.InRound.after_advanceUnwrap (h : s.InRound) : (advanceUnwrap s).UnwrapAdvancedFrom s.n s.i s.j := by
  obtain ⟨hp, hj, -, -⟩ := h
  refine ⟨fun hi => ?_, fun hi => ?_⟩
  · rw [advanceUnwrap_nextBlock hi hj]
    exact ⟨by bv_omega, rfl, hp⟩
  · have hlast : ¬ 1 < s.i.toNat := by omega
    by_cases hj0 : s.j.toNat = 0
    · rw [advanceUnwrap_last hlast hj0, if_pos hj0]
      exact ⟨rfl, rfl, by bv_omega⟩
    · rw [advanceUnwrap_nextRound hlast (by omega), if_neg hj0]
      exact ⟨rfl, hp, by bv_omega⟩

theorem State.InRound.after_roundWith_unwrap (h : s.InRound) (hop : s.op = .unwrap) (b : Block) :
    (roundWith b s).UnwrapAdvancedFrom s.n s.i s.j := by
  rw [roundWith_unwrap b hop, unwrapRound]
  have stored : State.InRound { storeRound (msb8 b) (lsb8 b) (latch b s) with t := s.t - 1 } := by
    simpa [State.InRound] using h
  simpa using stored.after_advanceUnwrap

/-- The counter goes down by one in each round, and never below zero (44_unwrap.md R89). -/
theorem State.Inv.t_roundWith_unwrap (h : s.Inv) (hop : s.op = .unwrap) (hp : s.phase = .round) (b : Block) :
    (roundWith b s).t.toNat + 1 = s.t.toNat := by
  have hi := (h.roundRange hp).2.1
  have ht := h.roundUnwrap hp hop
  rw [Machine.t_roundWith_unwrap hop b]
  bv_omega

/-! ## The comparison with the IV -/

/-- A value of eight bytes gives its bytes back, word by word. -/
theorem wordBytes_halfOfBytes (b0 b1 b2 b3 b4 b5 b6 b7 : Byte) :
    wordBytes ((halfOfBytes b0 b1 b2 b3 b4 b5 b6 b7).extractLsb' 32 32) = [b3, b2, b1, b0] ∧
      wordBytes ((halfOfBytes b0 b1 b2 b3 b4 b5 b6 b7).extractLsb' 0 32) = [b7, b6, b5, b4] := by
  rw [halfOfBytes_eq_append, BitVec.extractLsb'_append_eq_left, BitVec.extractLsb'_append_eq_right, wordBytes_le32,
    wordBytes_le32]
  exact ⟨rfl, rfl⟩

/-- The comparator takes all eight bytes of A (44_unwrap.md R91). -/
theorem regA_eq_iv_iff : s.regA = iv ↔ ∀ k, k < 8 → s.bufByte k = 0xA6 := by
  constructor
  · intro hA k hk
    have high : wordBytes (s.regA.extractLsb' 32 32) = [0xA6, 0xA6, 0xA6, 0xA6] := by rw [hA]; decide
    have low : wordBytes (s.regA.extractLsb' 0 32) = [0xA6, 0xA6, 0xA6, 0xA6] := by rw [hA]; decide
    rw [State.regA, State.half] at high low
    simp only [(wordBytes_halfOfBytes ..).1, (wordBytes_halfOfBytes ..).2, List.cons.injEq, and_true] at high low
    obtain ⟨h3, h2, h1, h0⟩ := high
    obtain ⟨h7, h6, h5, h4⟩ := low
    interval_cases k <;> assumption
  · intro hbytes
    simp [State.regA, State.half, hbytes, halfOfBytes, iv]

/-! ## The final step -/

theorem finalStep_unwrap_success (hop : s.op = .unwrap) (hA : s.regA = iv) :
    finalStep s = s.complete .none (s.lenLatched - 8) := by
  have ok : integrityOK s = true := decide_eq_true hA
  rw [finalStep, hop]
  exact if_pos ok

theorem finalStep_unwrap_failure (hop : s.op = .unwrap) (hA : s.regA ≠ iv) :
    finalStep s = (s.zeroBuf (8 * (s.n.toNat + 1))).complete .integrityFailure 0 := by
  have differs : ¬ integrityOK s = true := fun ok => hA (of_decide_eq_true ok)
  rw [finalStep, hop]
  exact if_neg differs

/-- Zeroisation clears the bytes below its bound (44_unwrap.md R93). -/
theorem State.bufByte_zeroBuf_of_lt (s : State) {m k : Nat} (hk : k < m) : (s.zeroBuf m).bufByte k = 0 := by
  have hin : 0 ≤ k ∧ k < 0 + (List.replicate m (0 : Byte)).length := by
    rw [List.length_replicate]
    omega
  rw [State.zeroBuf, State.bufByte_storeBytes, dif_pos hin, List.getElem_replicate]

theorem State.bufByte_zeroBuf_of_le (s : State) {m k : Nat} (hk : m ≤ k) : (s.zeroBuf m).bufByte k = s.bufByte k :=
  s.bufByte_storeBytes_frame (by rw [List.length_replicate]; omega)

end

/-! ## The statements -/

/-- Settles O41: the request by the turn's block, CIPHER's answer by the latches, any answer by what a round writes. -/
theorem unwrapRoundFollowsItsRule : Obligations.UnwrapRoundFollowsItsRule := by
  intro s rest hp hop hi hin hn
  have hb : s.blockOK = true := State.blockOK_iff.2 ⟨hi, hin, hn⟩
  refine ⟨fun hc hmove => ?_, fun hc hdir hcin hagenda => ?_, fun b hc hagenda => ?_⟩
  · have request : cipherInput (s.beginTurn rest) = ctr s.regA s.t ++ s.regR s.i.toNat := by
      rw [cipherInput, State.beginTurn_op, hop]
      rfl
    rw [step_issues hmove hp hc hb, issue, request, State.beginTurn_op, hop]
    rfl
  · have answer : cipherAnswer Config.cipher s = Config.cipher.decrypt (ctr s.regA s.t ++ s.regR s.i.toNat) := by
      rw [cipherAnswer, hdir, hcin]
      rfl
    rw [← answer, step_eq_turn, hagenda]
    rfl
  · have begun : (s.beginTurn rest).op = .unwrap := hop
    obtain ⟨m, t, i, j, p, frame⟩ := roundWith_frame b (s.beginTurn rest)
    refine ⟨_, step_answers hagenda hp hc hb, busy_roundWith_unwrap begun hp b, t_roundWith_unwrap begun b,
      regA_roundWith_unwrap begun hi b, regR_roundWith_unwrap_same begun b,
      fun k => bufByte_roundWith_of_ne (s := s.beginTurn rest) b, ?_⟩
    rw [frame]
    rfl

/-- Settles O43, by the cases of `Advance` and the counter's place in the invariant. -/
theorem unwrapRoundsRunInOrder : Obligations.UnwrapRoundsRunInOrder := by
  intro s b rest h hop hc hagenda
  have hp : s.phase = .round := (h.request hc).1
  have begun : (s.beginTurn rest).Inv := h.beginTurn rest
  obtain ⟨withinRound, toNextRound⟩ := (begun.inRound hp).after_roundWith_unwrap hop b
  exact ⟨h.roundUnwrap hp hop, _, step_answers hagenda hp hc (h.blockOK hp), begun.t_roundWith_unwrap hop hp b,
    withinRound, toNextRound⟩

/-- Settles O45: the two ends of UnwrapFinal, told apart by the eight bytes of A. -/
theorem unwrapFinalComparesAndZeroes : Obligations.UnwrapFinalComparesAndZeroes := by
  intro s rest hp hop hn hmove
  have hstep := step_completes hmove hp hn
  refine ⟨fun hbytes => ?_, fun ⟨k, hk, hbyte⟩ => ?_⟩
  · have hA : (s.beginTurn rest).regA = iv := regA_eq_iv_iff.2 hbytes
    rw [hstep, finalStep_unwrap_success (s := s.beginTurn rest) hop hA]
    rfl
  · have hA : (s.beginTurn rest).regA ≠ iv := fun hA => hbyte (regA_eq_iv_iff.1 hA k hk)
    rw [finalStep_unwrap_failure (s := s.beginTurn rest) hop hA] at hstep
    exact ⟨_, hstep, fun k => (s.beginTurn rest).bufByte_zeroBuf_of_lt,
      fun k => (s.beginTurn rest).bufByte_zeroBuf_of_le, rfl⟩

end Sys2Proof.Machine
end

section
/-! A whole UNWRAP (44_unwrap.md): its number of steps (O55), its rounds as the source's loops when one cipher serves it
(O57), and an UNWRAP after a WRAP under one cipher (O58). -/

namespace Sys2Proof.Machine

/-- Settles O55: by the run over any answers, whose number the invariant gives at the first round, and the two ends of
the final step. -/
theorem unwrapTakesSixNRounds : Obligations.UnwrapTakesSixNRounds := by
  intro s answers rest hinv hop hp hc hj hi hlen hagenda
  have busy : s.busy = true := State.busy_eq_true_iff.2 (by simp [hp])
  have ht : s.t.toNat = s.n.toNat * 5 + s.n.toNat := by simpa [hj, hi] using hinv.roundUnwrap hp hop
  have left : s.roundsLeft = 6 * s.n.toNat := by
    simp only [State.roundsLeft, hop, ht]
    omega
  have through : s.RunsThrough answers rest := ⟨⟨hinv, busy, hc⟩, hlen.trans left.symm, hagenda⟩
  have moves : 12 * s.n.toNat = 2 * answers.length := by omega
  obtain ⟨t, hrun, lead, -, htail⟩ := through.run_command
  obtain ⟨hn, hop', hlen', hlatched⟩ := lead.kept
  rw [← moves] at hrun
  refine ⟨fun k hk => through.run_busy (hk.trans_eq moves), finalStep t, hrun, ?_⟩
  by_cases hA : t.regA = iv
  · rw [finalStep_unwrap_success (hop'.trans hop) hA, hlatched]
    exact ⟨rfl, rfl, hlen', htail, lead.bytesAbove, .inl ⟨rfl, rfl, hA⟩⟩
  · rw [finalStep_unwrap_failure (hop'.trans hop) hA, hn]
    refine ⟨rfl, rfl, hlen', htail, fun k hk => ?_, .inr ⟨rfl, rfl, fun k => t.bufByte_zeroBuf_of_lt⟩⟩
    exact (t.bufByte_zeroBuf_of_le hk).trans (lead.bytesAbove k hk)

/-! ## The source's loops -/

theorem State.blocks_succ_last (s : State) (first count : Nat) :
    s.blocks first (count + 1) = s.blocks first count ++ [s.regR (first + count)] := by
  simp [State.blocks, List.range_succ]

/-- UNWRAP's inner loop takes the last block first (44_unwrap.md R88). -/
theorem rfcUnwrapPass_append {dec : Block → Block} {a r : Half} {rs : List Half} {t : Nat} {b : Block}
    (hb : dec (ctr a (BitVec.ofNat 32 (t + rs.length + 1)) ++ r) = b) :
    rfcUnwrapPass dec t a (rs ++ [r]) =
      ((rfcUnwrapPass dec t (msb8 b) rs).1, (rfcUnwrapPass dec t (msb8 b) rs).2 ++ [lsb8 b]) := by
  induction rs generalizing t with
  | nil =>
    subst hb
    rfl
  | cons r' rs ih =>
    have count : t + 1 + rs.length = t + (r' :: rs).length := by
      rw [List.length_cons]
      omega
    rw [List.cons_append, rfcUnwrapPass, ih (count ▸ hb)]
    rfl

/-- The source's rounds `j - 1` down to 0 of UNWRAP on `n` blocks, from A and the blocks in `x` (44_unwrap.md R88). -/
def rfcUnwrapPasses (dec : Block → Block) (n : Nat) : Nat → Half × List Half → Half × List Half
  | 0, x => x
  | j + 1, x => rfcUnwrapPasses dec n j (rfcUnwrapPass dec (n * j) x.1 x.2)

theorem rfcUnwrap_eq_passes (dec : Block → Block) (a : Half) (c : List Half) :
    rfcUnwrap dec a c = rfcUnwrapPasses dec c.length 6 (a, c) := rfl

/-! ## The rounds of a served UNWRAP -/

/-- A round of UNWRAP in `s`, answered by `c`, leads to `t` (44_unwrap.md R89, R90). -/
structure ServedUnwrapRound (c : Cipher) (s t : State) : Prop where
  served : serve c 2 s = .next t
  between : t.BetweenRounds
  lead : s.RoundsLeadTo t
  advanced : t.UnwrapAdvancedFrom s.n s.i s.j
  newA : t.regA = msb8 (c.decrypt (ctr s.regA s.t ++ s.regR s.i.toNat))
  newR : t.regR s.i.toNat = lsb8 (c.decrypt (ctr s.regA s.t ++ s.regR s.i.toNat))
  otherR : ∀ k, 1 ≤ k → k ≠ s.i.toNat → t.regR k = s.regR k

/-- The source's inner loop on the blocks up to `i` begins with the round of block `i` (44_unwrap.md R88). -/
theorem ServedUnwrapRound.rfcUnwrapPass_eq {c : Cipher} {s t : State} (first : ServedUnwrapRound c s t) {m : Nat}
    (ht : s.t.toNat = s.n.toNat * s.j.toNat + s.i.toNat) (hm : 1 + m = s.i.toNat) :
    rfcUnwrapPass c.decrypt (s.n.toNat * s.j.toNat) s.regA (s.blocks 1 (m + 1)) =
      ((rfcUnwrapPass c.decrypt (s.n.toNat * s.j.toNat) t.regA (t.blocks 1 m)).1,
        (rfcUnwrapPass c.decrypt (s.n.toNat * s.j.toNat) t.regA (t.blocks 1 m)).2 ++ [t.regR s.i.toNat]) := by
  have counter : BitVec.ofNat 32 (s.n.toNat * s.j.toNat + m + 1) = s.t := by bv_omega
  have unread : t.blocks 1 m = s.blocks 1 m :=
    State.blocks_congr fun k hk _ => first.otherR k hk (by omega)
  rw [s.blocks_succ_last, hm, first.newA, first.newR, unread]
  exact rfcUnwrapPass_append (by rw [s.blocks_length, counter])

/-- The sequencer of UNWRAP stands before the first of the last `left` rounds, or before its final step where none is
left (44_unwrap.md R90). -/
structure State.StartsUnwrapRound (s : State) (left : Nat) : Prop where
  block : s.i = s.n
  round : left ≠ 0 → s.j.toNat + 1 = left
  phase : s.phase = if left = 0 then .final else .round

theorem State.UnwrapAdvancedFrom.startsUnwrapRound {t : State} {n i : BitVec 9} {j : BitVec 3}
    (h : t.UnwrapAdvancedFrom n i j) (hn : t.n = n) (hi : i.toNat = 1) : t.StartsUnwrapRound j.toNat := by
  obtain ⟨hblock, hnext⟩ := h.toNextRound hi
  split at hnext
  · exact ⟨hblock.trans hn.symm, by omega, by simp [*]⟩
  · exact ⟨hblock.trans hn.symm, fun _ => hnext.2, by simp [*]⟩

section
variable {s : State} (c : Cipher) (h : s.BetweenRounds) (hop : s.op = .unwrap)
include h hop

theorem State.BetweenRounds.servedUnwrapRound (hp : s.phase = .round) : ∃ t, ServedUnwrapRound c s t := by
  have begun := h.beginTurn []
  have answer : cipherAnswer c (issue s) = c.decrypt (ctr s.regA s.t ++ s.regR s.i.toNat) := by
    rw [cipherAnswer, issue_cdir, issue_cin, cipherInput, hop]
    rfl
  have lead := (State.RoundsLeadTo.beginTurn s []).trans (begun.roundsLeadTo_afterRound hp (cipherAnswer c (issue s)))
  obtain ⟨-, hi, -⟩ := h.inv.roundRange hp
  have sent : (issue (s.beginTurn [])).Inv := begun.inv.after_issue hp
  have hop' : (issue (s.beginTurn [])).op = .unwrap := hop
  refine ⟨_, h.serve_round hp c, begun.afterRound hp _, lead, (sent.inRound hp).after_roundWith_unwrap hop' _,
    ?_, ?_, ?_⟩ <;> rw [answer]
  · exact regA_roundWith_unwrap hop' hi _
  · exact regR_roundWith_unwrap_same hop' _
  · exact fun k hk hne => regR_roundWith_unwrap_ne hop' hk hne _

/-- The rounds from block `i` down to block 1 are the source's inner loop on those blocks (44_unwrap.md R88). -/
theorem State.BetweenRounds.serve_unwrap_pass {m : Nat} (hp : s.phase = .round) (hm : 1 + m = s.i.toNat) :
    ∃ t, serve c (2 * (m + 1)) s = .next t ∧ t.BetweenRounds ∧ s.RoundsLeadTo t ∧
      t.StartsUnwrapRound s.j.toNat ∧ (∀ k, s.i.toNat < k → t.regR k = s.regR k) ∧
      (t.regA, t.blocks 1 (m + 1)) =
        rfcUnwrapPass c.decrypt (s.n.toNat * s.j.toNat) s.regA (s.blocks 1 (m + 1)) := by
  induction m generalizing s with
  | zero =>
    obtain ⟨t, first⟩ := h.servedUnwrapRound c hop hp
    obtain ⟨hn, -⟩ := first.lead.kept
    refine ⟨t, first.served, first.between, first.lead, first.advanced.startsUnwrapRound hn hm.symm,
      fun k hk => first.otherR k (by omega) (by omega), ?_⟩
    rw [first.rfcUnwrapPass_eq (h.inv.roundUnwrap hp hop) hm, t.blocks_succ_last, hm]
    rfl
  | succ m ih =>
    obtain ⟨t, first⟩ := h.servedUnwrapRound c hop hp
    obtain ⟨hn, hop', -⟩ := first.lead.kept
    obtain ⟨hnext, hround, hphase⟩ := first.advanced.withinRound (by omega)
    obtain ⟨u, hserve, between, lead, starts, kept, loop⟩ :=
      ih first.between (hop'.trans hop) hphase (by omega)
    rw [hround] at starts
    rw [hround, hn] at loop
    refine ⟨u, ?_, between, first.lead.trans lead, starts, fun k hk => ?_, ?_⟩
    · rw [← hserve, ← serve_add first.served]
      congr 1
      omega
    · rw [kept k (by omega), first.otherR k (by omega) (by omega)]
    · rw [first.rfcUnwrapPass_eq (h.inv.roundUnwrap hp hop) hm, ← loop, u.blocks_succ_last, hm, kept _ (by omega)]

/-- The last `left` rounds are the rest of the source's outer loop (44_unwrap.md R88). -/
theorem State.BetweenRounds.serve_unwrap_passes {left : Nat} (hstart : s.StartsUnwrapRound left) :
    ∃ t, serve c (2 * s.n.toNat * left) s = .next t ∧ t.BetweenRounds ∧ s.RoundsLeadTo t ∧ t.phase = .final ∧
      (t.regA, t.blocks 1 s.n.toNat) = rfcUnwrapPasses c.decrypt s.n.toNat left (s.regA, s.blocks 1 s.n.toNat) := by
  induction left generalizing s with
  | zero => exact ⟨s, rfl, h, .refl s, hstart.phase, rfl⟩
  | succ left ih =>
    have hblocks := h.inv.busyBlocks h.busy
    have hj : s.j.toNat = left := Nat.succ.inj (hstart.round left.succ_ne_zero)
    obtain ⟨t, hpass, between, lead, starts, -, loop⟩ :=
      h.serve_unwrap_pass c hop (m := s.n.toNat - 1) hstart.phase (by rw [hstart.block]; omega)
    have count : s.n.toNat - 1 + 1 = s.n.toNat := by omega
    obtain ⟨hn, hop', -⟩ := lead.kept
    rw [hj] at starts loop
    rw [count] at hpass loop
    obtain ⟨u, hserve, between', lead', hphase, loops⟩ := ih between (hop'.trans hop) starts
    rw [hn] at hserve loops
    refine ⟨u, ?_, between', lead.trans lead', hphase, ?_⟩
    · rw [Nat.mul_succ, Nat.add_comm, serve_add hpass, hserve]
    · rw [loops, loop]
      rfl

/-- A served UNWRAP from its first round: the source's loops in BUF, and the final step (44_unwrap.md R88, R91). -/
theorem State.BetweenRounds.serve_unwrap (hstart : s.StartsUnwrapRound 6) :
    ∃ t, serve c (12 * s.n.toNat + 1) s = .next (finalStep t) ∧ s.RoundsLeadTo t ∧
      (t.regA, t.blocks 1 s.n.toNat) = rfcUnwrapPasses c.decrypt s.n.toNat 6 (s.regA, s.blocks 1 s.n.toNat) := by
  obtain ⟨t, hserve, between, lead, hphase, loops⟩ := h.serve_unwrap_passes c hop hstart
  have count : 12 * s.n.toNat + 1 = 2 * s.n.toNat * 6 + 1 := by omega
  exact ⟨t.beginTurn [], by rw [count, serve_add hserve, between.serve_final hphase c], lead.trans (.beginTurn t []),
    loops⟩

end

/-- The state in which an accepted UNWRAP stands before its first round. -/
theorem State.Inv.betweenRounds_startUnwrap {s : State} (h : s.Inv) (hr : s.rstN = true) (idle : s.busy = false)
    (hok : unwrapLenOK s.nMax s.len = true) : ((startUnwrap s.clearStatus).respond none .okay).BetweenRounds :=
  ⟨(h.after_startUnwrap hr idle hok).respond none .okay, rfl, h.creq_of_idle idle⟩

/-- Settles O57: the loops of a served UNWRAP from the state that acceptance leaves, and the two ends of the final step. -/
theorem unwrapComputesRfc3394 : Obligations.UnwrapComputesRfc3394 := by
  intro c s h hr idle hok n out
  obtain ⟨-, -, hlen⟩ := unwrapBlocks_toNat h.capacity hok
  have hn : (unwrapBlocks s.len).toNat = n := by omega
  obtain ⟨t, hserve, lead, loops⟩ :=
    (h.betweenRounds_startUnwrap hr idle hok).serve_unwrap c rfl ⟨rfl, fun _ => rfl, rfl⟩
  obtain ⟨hn', hop, hkept, hlatched⟩ := lead.kept
  have bytesAbove := lead.bytesAbove
  simp only [State.respond_n, startUnwrap_n, State.clearStatus_len, hn] at hserve loops bytesAbove hn'
  have result : (t.regA, t.blocks 1 n) = out := by
    rw [loops]
    simp only [out, rfcUnwrap_eq_passes, State.blocks_length]
    rfl
  refine ⟨_, finalStep t, exec_unwrap_starts hr idle hok, hserve, ?_⟩
  rw [← result]
  dsimp only
  by_cases hA : t.regA = 0xA6A6A6A6A6A6A6A6
  · rw [finalStep_unwrap_success hop hA, hlatched, if_pos hA]
    refine ⟨rfl, rfl, hkept, bytesAbove, rfl, ?_, t.blocks_succ 0 n⟩
    simp only [State.complete_outlen, State.respond_lenLatched, startUnwrap_lenLatched, State.clearStatus_len]
    bv_omega
  · rw [finalStep_unwrap_failure hop hA, hn', hn, if_neg hA]
    refine ⟨rfl, rfl, hkept, fun k hk => ?_, rfl, rfl, fun k => t.bufByte_zeroBuf_of_lt⟩
    exact (t.bufByte_zeroBuf_of_le hk).trans (bytesAbove k hk)

/-! ## An UNWRAP after a WRAP -/

theorem msb8_append (a r : Half) : msb8 (a ++ r) = a := BitVec.extractLsb'_append_eq_left

theorem lsb8_append (a r : Half) : lsb8 (a ++ r) = r := BitVec.extractLsb'_append_eq_right

theorem msb8_append_lsb8 (b : Block) : msb8 b ++ lsb8 b = b :=
  (BitVec.extractLsb'_append_extractLsb'_eq_extractLsb' rfl).trans BitVec.extractLsb'_eq_self

section
variable {c : Cipher} {s t : State}

section
variable (inverse : ∀ x, c.decrypt (c.encrypt x) = x)
include inverse

/-- UNWRAP's inner loop undoes WRAP's, from the same counter (44_unwrap.md R94). -/
theorem rfcUnwrapPass_rfcWrapPass (t : Nat) (a : Half) (rs : List Half) :
    rfcUnwrapPass c.decrypt t (rfcWrapPass c.encrypt t a rs).1 (rfcWrapPass c.encrypt t a rs).2 = (a, rs) := by
  induction rs generalizing t a with
  | nil => rfl
  | cons r rs ih =>
    simp only [rfcWrapPass, rfcUnwrapPass, ih, ctr_ctr, msb8_append_lsb8, inverse, msb8_append, lsb8_append]

/-- UNWRAP's rounds, in descending order, undo WRAP's in ascending order (44_unwrap.md R94). -/
theorem rfcUnwrapPasses_rfcWrapPasses (n j : Nat) (x : Half × List Half) :
    rfcUnwrapPasses c.decrypt n j (rfcWrapPasses c.encrypt n j x) = x := by
  induction j with
  | zero => rfl
  | succ j ih => rw [rfcWrapPasses_succ, rfcUnwrapPasses, rfcUnwrapPass_rfcWrapPass inverse, ih]

end

/-! ## What no served move changes -/

theorem engineTurn_keepsCapacityAndReset (ht : engineTurn s = .next t) : t.nMax = s.nMax ∧ t.rstN = s.rstN := by
  obtain ⟨-, rfl⟩ | ⟨-, -, rfl⟩ | ⟨-, -, -, rfl⟩ | ⟨-, -, rfl⟩ := engineTurn_cases ht
  · exact ⟨rfl, rfl⟩
  · exact ⟨rfl, rfl⟩
  · exact ⟨rfl, rfl⟩
  · obtain ⟨-, he⟩ | ⟨-, -, he⟩ | ⟨-, -, he⟩ := finalStep_cases s <;> rw [he] <;> exact ⟨rfl, rfl⟩

theorem cipherTurn_keepsCapacityAndReset {b : Block} (ht : cipherTurn b s = .next t) :
    t.nMax = s.nMax ∧ t.rstN = s.rstN := by
  obtain ⟨-, rfl⟩ | ⟨-, -, -, rfl⟩ := cipherTurn_cases ht
  · exact ⟨rfl, rfl⟩
  · obtain ⟨m, t, i, j, p, frame⟩ := roundWith_frame b s
    rw [frame]
    exact ⟨rfl, rfl⟩

theorem step_nextMove_keepsCapacityAndReset (ht : step { s with agenda := [nextMove c s] } = .next t) :
    t.nMax = s.nMax ∧ t.rstN = s.rstN := by
  rw [step_eq_turn, nextMove] at ht
  split at ht
  · exact cipherTurn_keepsCapacityAndReset (s := s.beginTurn []) ht
  · exact engineTurn_keepsCapacityAndReset (s := s.beginTurn []) ht

theorem serve_keepsInvCapacityAndReset {count : Nat} (h : s.Inv) (ht : serve c count s = .next t) :
    t.Inv ∧ t.nMax = s.nMax ∧ t.rstN = s.rstN := by
  induction count generalizing s with
  | zero =>
    obtain rfl : s = t := Host.Outcome.next.inj ht
    exact ⟨h, rfl, rfl⟩
  | succ count ih =>
    rw [serve] at ht
    split at ht
    case h_1 u hu =>
      have moved : u.Inv := everyStepKeepsTheInvariant _ u (h.withEnvironment _ s.response) hu
      obtain ⟨hcap, hreset⟩ := step_nextMove_keepsCapacityAndReset hu
      obtain ⟨hinv, hcap', hreset'⟩ := ih moved ht
      exact ⟨hinv, hcap'.trans hcap, hreset'.trans hreset⟩
    · cases ht
    · cases ht

/-- A served UNWRAP of what the source unwraps to the IV and `p` returns `p` (44_unwrap.md R92). -/
theorem State.Inv.serve_unwrap_success (h : s.Inv) (hr : s.rstN = true) (idle : s.busy = false)
    (hok : unwrapLenOK s.nMax s.len = true) {n : Nat} (hn : s.len.toNat / 8 - 1 = n) {p : List Half}
    (hout : rfcUnwrap c.decrypt s.regA (s.blocks 1 n) = (iv, p)) :
    ∃ x y, exec .unwrap s = .next x ∧ serve c (12 * n + 1) x = .next y ∧ y.busy = false ∧ y.done = true ∧
      y.err = .none ∧ y.outlen.toNat + 8 = s.len.toNat ∧ y.blocks 1 n = p := by
  subst hn
  obtain ⟨x, y, hunwrap, hserve, yIdle, yDone, -, -, ending⟩ := unwrapComputesRfc3394 c s h hr idle hok
  have ivFound : (iv, p).1 = 0xA6A6A6A6A6A6A6A6 := rfl
  rw [hout, if_pos ivFound] at ending
  obtain ⟨yErr, yOutlen, yBlocks⟩ := ending
  rw [y.blocks_succ] at yBlocks
  exact ⟨x, y, hunwrap, hserve, yIdle, yDone, yErr, yOutlen, (List.cons.inj yBlocks).2⟩

end

/-- WRAP's OUTLEN is a legal LEN of UNWRAP (44_unwrap.md R94). -/
theorem unwrapLenOK_add_eight {nMax : Nat} {len : Word} (hcap : Config.LegalNMax nMax)
    (hok : wrapLenOK nMax len = true) :
    (len + 8).toNat = len.toNat + 8 ∧ unwrapLenOK nMax (len + 8) = true := by
  obtain ⟨hlo, hmod, hhi⟩ := wrapLenOK_iff.1 hok
  have longer : (len + 8).toNat = len.toNat + 8 := by bv_omega
  exact ⟨longer, unwrapLenOK_iff.2 (by omega)⟩

/-- Settles O58: the served UNWRAP meets the result of the served WRAP (O56), whose loops it undoes. -/
theorem unwrapUndoesWrap : Obligations.UnwrapUndoesWrap := by
  intro c s inverse h hr idle hok n
  obtain ⟨u, v, hwrap, hserve, vIdle, -, -, -, -, vBlocks, -⟩ := wrapComputesRfc3394 c s h hr idle hok
  obtain rfl : (startWrap s.clearStatus).respond none .okay = u :=
    Host.Outcome.next.inj ((exec_wrap_starts hr idle hok).symm.trans hwrap)
  obtain ⟨vInv, capacityKept, resetKept⟩ := serve_keepsInvCapacityAndReset (h.after_exec hwrap) hserve
  have vCap : v.nMax = s.nMax := capacityKept
  have running : v.rstN = true := resetKept.trans hr
  obtain ⟨longer, lenOK⟩ := unwrapLenOK_add_eight h.capacity hok
  rw [← vCap] at lenOK
  have hlen : exec (.wrLen (s.len + 8)) v = .next ((v.writeLen (s.len + 8)).respond none .okay) :=
    exec_writeIdle_idle running rfl vIdle
  have undone : rfcUnwrap c.decrypt v.regA (v.blocks 1 n) = (iv, s.blocks 1 n) := by
    rw [v.blocks_succ] at vBlocks
    obtain ⟨hA, hR⟩ : v.regA = _ ∧ v.blocks 1 n = _ := List.cons.inj vBlocks
    rw [rfcUnwrap_eq_passes, State.blocks_length, hA, hR, rfcWrap_eq_passes, State.blocks_length]
    exact rfcUnwrapPasses_rfcWrapPasses inverse n 6 _
  have lenHeld : ((v.writeLen (s.len + 8)).respond none .okay).len.toNat = s.len.toNat + 8 := longer
  obtain ⟨x, y, hunwrap, hserve', yIdle, yDone, yErr, yOutlen, yBlocks⟩ :=
    (vInv.after_exec hlen).serve_unwrap_success (c := c) running vIdle lenOK (by rw [lenHeld]; omega) undone
  refine ⟨_, v, _, x, y, hwrap, hserve, hlen, hunwrap, hserve', yIdle, yDone, yErr, ?_, yBlocks⟩
  exact BitVec.eq_of_toNat_eq (by omega)

end Sys2Proof.Machine
end

section
/-! Nothing traps (60_exceptions.md R98): no turn faults under the invariant (O6), and no run from power-on does (O7). -/

namespace Sys2Proof.Machine

section
variable {s t : State}

theorem exec_ne_fault (i : Instr) (s : State) (r : Fault) : exec i s ≠ .fault r := by
  rw [exec_eq_transact]
  exact transact_ne_fault s _ r

theorem rstTurn_ne_fault (level : Bool) (s : State) (r : Fault) : rstTurn level s ≠ .fault r := by
  unfold rstTurn
  split <;> exact nofun

/-- In ROUND the sequencer names a block of BUF, and in FINAL the blocks of its command lie inside BUF. -/
theorem State.Inv.engineTurn_ne_fault (h : s.Inv) (r : Fault) : engineTurn s ≠ .fault r := by
  cases hp : s.phase with
  | idle =>
    rw [engineTurn_idle hp]
    exact nofun
  | round =>
    cases hc : s.creq with
    | true =>
      rw [engineTurn_waits hp hc]
      exact nofun
    | false =>
      rw [engineTurn_issues hp hc (h.blockOK hp)]
      exact nofun
  | final =>
    have busy : s.busy = true := State.busy_eq_true_iff.2 (by simp [hp])
    rw [engineTurn_completes hp (h.busyBlocks busy).2]
    exact nofun

/-- A request is outstanding in ROUND alone, where the sequencer names a block of BUF. -/
theorem State.Inv.cipherTurn_ne_fault (h : s.Inv) (b : Block) (r : Fault) : cipherTurn b s ≠ .fault r := by
  cases hc : s.creq with
  | false =>
    rw [cipherTurn_ignored b hc]
    exact nofun
  | true =>
    have hp : s.phase = .round := (h.request hc).1
    rw [cipherTurn_completes_round b hc hp (h.blockOK hp)]
    exact nofun

theorem State.Inv.turn_ne_fault (h : s.Inv) (e : Event) (r : Fault) : turn e s ≠ .fault r := by
  cases e with
  | host w => exact exec_ne_fault _ s r
  | engine => exact h.engineTurn_ne_fault r
  | cack => exact h.cipherTurn_ne_fault _ r
  | cackWith b => exact h.cipherTurn_ne_fault b r
  | rst level => exact rstTurn_ne_fault level s r

/-- N_MAX is fixed for a run (00_scope.md R4). -/
theorem step_nMax (hstep : step s = .next t) : t.nMax = s.nMax := by
  obtain ⟨_, _, -, ht⟩ | ⟨_, -, ht⟩ | ⟨_, _, _, -, -, ht⟩ | ⟨_, _, -, ht⟩ := step_cases hstep
  · obtain ⟨-, u, d, r, hu, rfl⟩ := exec_cases ht
    exact hu.frame.1
  · exact (engineTurn_keepsCapacityAndReset ht).1
  · exact (cipherTurn_keepsCapacityAndReset ht).1
  · obtain ⟨-, -, rfl⟩ | ⟨-, rfl⟩ := rstTurn_cases ht <;> rfl

end

/-- Settles O6: the next move is a turn, and none faults under the invariant. -/
theorem noStepFaultsUnderTheInvariant : Obligations.NoStepFaultsUnderTheInvariant := by
  intro s r h
  rw [step_eq_turn]
  exact (h.beginTurn _).turn_ne_fault _ r

/-- A predicate that every step keeps, and under which none faults, holds of all that a run reaches, and the run does not
fault. -/
theorem run_safe {M : Host.Core} {P : M.State → Prop} (keeps : ∀ s t, P s → M.step s = .next t → P t)
    (safe : ∀ s r, P s → M.step s ≠ .fault r) (k : Nat) {s : M.State} (h : P s) :
    (∀ r, M.run k s ≠ .fault r) ∧ ∀ t, M.run k s = .next t → P t := by
  induction k generalizing s with
  | zero => exact ⟨nofun, fun t ht => Host.Outcome.next.inj ht ▸ h⟩
  | succ k ih =>
    cases hstep : M.step s with
    | next u =>
      rw [run_succ hstep]
      exact ih (keeps s u h hstep)
    | fault r => exact absurd hstep (safe s r h)
    | refused r =>
      have stopped : M.run (k + 1) s = .refused r := by rw [Host.Core.run, hstep]
      rw [stopped]
      exact ⟨nofun, nofun⟩

/-- Settles O7: power-on has the invariant, every step keeps it with N_MAX (O5), and none faults under it (O6). -/
theorem everyRunFromPowerOnIsSafe : Obligations.EveryRunFromPowerOnIsSafe := by
  intro nMax agenda k legal
  refine run_safe (M := core) (P := fun s : State => s.Inv ∧ s.nMax = nMax) ?_ ?_ k ⟨State.boot_inv legal agenda, rfl⟩
  · rintro s t ⟨h, capacity⟩ hstep
    exact ⟨everyStepKeepsTheInvariant s t h hstep, (step_nMax hstep).trans capacity⟩
  · rintro s r ⟨h, -⟩
    exact noStepFaultsUnderTheInvariant s r h

end Sys2Proof.Machine
end

section
/-! DONE and the interrupt output (60_exceptions.md R96, R99): the steps that raise DONE (O49), and irq after each step that
moves it (O48). -/

namespace Sys2Proof.Machine

section
variable {s t : State}

/-- Every end of a command is a completion (60_exceptions.md R96). -/
theorem finalStep_completes (s : State) :
    (finalStep s).busy = false ∧ (finalStep s).done = true ∧ (finalStep s).doneIE = s.doneIE := by
  obtain ⟨-, he⟩ | ⟨-, -, he⟩ | ⟨-, -, he⟩ := finalStep_cases s <;> rw [he] <;> exact ⟨rfl, rfl, rfl⟩

/-! ## The rise of DONE -/

section
variable (low : s.done = false)
include low

/-- A transaction raises DONE only as a command word that fails at acceptance (60_exceptions.md R96). -/
theorem HostUpdate.done_raised {i : Instr} {u : State} (hu : HostUpdate i s u) (high : u.done = true) :
    s.busy = false ∧ u.busy = false ∧ (u.err = .invalidLength ∨ u.err = .illegalCommand) := by
  cases hu with
  | commandFailed e idle code => exact ⟨idle, rfl, code⟩
  | wrapStarted | unwrapStarted => exact nomatch high
  | statusWritten d =>
    rw [State.writeStatus_of_not_done low] at high
    exact nomatch low.symm.trans high
  | unchanged | irqEnWritten | lenWritten | bufWritten => exact nomatch low.symm.trans high

/-- The engine raises DONE only by the final step of a command. -/
theorem engineTurn_done_raised (ht : engineTurn s = .next t) (high : t.done = true) :
    s.phase = .final ∧ t.busy = false := by
  obtain ⟨-, rfl⟩ | ⟨-, -, rfl⟩ | ⟨-, -, -, rfl⟩ | ⟨hp, -, rfl⟩ := engineTurn_cases ht
  · exact nomatch low.symm.trans high
  · exact nomatch low.symm.trans high
  · exact nomatch low.symm.trans high
  · exact ⟨hp, (finalStep_completes s).1⟩

theorem rstTurn_done_low {level : Bool} (ht : rstTurn level s = .next t) : t.done = false := by
  obtain ⟨-, -, rfl⟩ | ⟨-, rfl⟩ := rstTurn_cases ht
  · exact low
  · rfl

end

theorem cipherTurn_done {b : Block} (ht : cipherTurn b s = .next t) : t.done = s.done := by
  obtain ⟨-, rfl⟩ | ⟨-, -, -, rfl⟩ := cipherTurn_cases ht
  · rfl
  · obtain ⟨_, _, _, _, _, frame⟩ := roundWith_frame b s
    rw [frame]

/-! ## The interrupt output -/

/-- A transaction that is answered leaves its effect. -/
theorem eq_effectOf_of_exec {i : Instr} (ht : exec i s = .next t) : t = effectOf i s := by
  rw [exec_eq_transact] at ht
  exact (transact_cases ht).2

/-- A write of 1 to DONE clears it (40_bus_access.md R57). -/
theorem State.irq_writeStatus (s : State) {d : Word} (hd : d.getLsbD 1 = true) : (s.writeStatus d).irq = false := by
  rw [State.writeStatus_eq, hd]
  rfl

theorem State.irq_writeIrqEn (s : State) {d : Word} (hd : d.getLsbD 0 = false) : (s.writeIrqEn d).irq = false := by
  rw [State.irq, State.writeIrqEn, hd, Bool.and_false]

/-- A CMD write that starts a command clears DONE (41_commands.md R66). -/
theorem irq_of_command_started {i : Instr} (ht : exec i s = .next t) (idle : s.busy = false) (started : t.busy = true) :
    t.irq = false := by
  obtain ⟨-, u, d, r, hu, rfl⟩ := exec_cases ht
  exact State.irq_of_not_done (hu.status_of_started idle started).1

/-- NOP is at most an answer on the bus (41_commands.md R65). -/
theorem irq_exec_nop (ht : exec .nop s = .next t) : t.irq = s.irq := by
  obtain rfl := eq_effectOf_of_exec ht
  cases hb : s.busy with
  | true => rw [effectOf, writeIdle_busy hb]; rfl
  | false => rw [effectOf, writeIdle_idle hb]; rfl

theorem engineTurn_irq_of_final (ht : engineTurn s = .next t) (hp : s.phase = .final) : t.irq = s.doneIE := by
  obtain ⟨hidle, -⟩ | ⟨hround, -⟩ | ⟨hround, -⟩ | ⟨-, -, rfl⟩ := engineTurn_cases ht
  · exact nomatch hidle.symm.trans hp
  · exact nomatch hround.symm.trans hp
  · exact nomatch hround.symm.trans hp
  · obtain ⟨-, done, enable⟩ := finalStep_completes s
    exact (State.irq_of_done done).trans enable

theorem irq_of_reset {rest : List Event} (hmove : s.agenda = .rst false :: rest) (ht : step s = .next t) :
    t.irq = false := by
  rw [step_eq_turn, hmove] at ht
  obtain ⟨hlevel, -⟩ | ⟨-, rfl⟩ := rstTurn_cases ht
  · exact nomatch hlevel
  · rfl

end

/-- Settles O49, by the kinds of step: the cipher's answer keeps DONE, the reset line clears it. -/
theorem doneRisesOnlyByCompletion : Obligations.DoneRisesOnlyByCompletion := by
  intro s t hstep low high
  obtain ⟨w, rest, ha, ht⟩ | ⟨rest, -, ht⟩ | ⟨_, _, rest, -, -, ht⟩ | ⟨_, rest, -, ht⟩ := step_cases hstep
  · obtain ⟨-, u, d, r, hu, rfl⟩ := exec_cases ht
    obtain ⟨idle, idleAfter, code⟩ := hu.done_raised (s := s.beginTurn rest) low high
    exact ⟨idleAfter, .inr ⟨idle, w, rest, ha, code⟩⟩
  · obtain ⟨hp, idleAfter⟩ := engineTurn_done_raised (s := s.beginTurn rest) low ht high
    exact ⟨idleAfter, .inl hp⟩
  · exact nomatch low.symm.trans ((cipherTurn_done ht).symm.trans high)
  · exact nomatch (rstTurn_done_low (s := s.beginTurn rest) low ht).symm.trans high

/-- Settles O48: irq after the two register writes, a start, NOP, the final step, and reset. -/
theorem interruptFollowsDoneAndEnable : Obligations.InterruptFollowsDoneAndEnable := by
  intro s t
  refine ⟨fun d ht hd => ?_, fun d ht hd => ?_, fun w => irq_of_command_started, irq_exec_nop,
    fun rest hmove hp ht => ?_, fun rest => irq_of_reset⟩
  · obtain rfl := eq_effectOf_of_exec ht
    exact s.irq_writeStatus hd
  · obtain rfl := eq_effectOf_of_exec ht
    exact ⟨s.irq_writeIrqEn hd, rfl⟩
  · rw [hmove.step_eq] at ht
    exact engineTurn_irq_of_final (s := s.beginTurn rest) ht hp

end Sys2Proof.Machine
end

section
/-! Reset and hazards (70_reset_and_hazards.md): the reset line (O3), transactions while it is low (O4), a cack without a
request (O46), and transactions on a busy engine (O50). -/

namespace Sys2Proof.Machine

/-! ## Reset -/

section
variable {s : State}

theorem transact_eq_refused (hr : s.rstN = false) (f : State → State) : transact s f = .refused .busDuringReset :=
  if_neg (ne_true_of_eq_false hr)

/-- The reset line going low resets the engine, whatever it was doing (70_reset_and_hazards.md R108). -/
theorem step_rst_low {rest : List Event} (hmove : s.agenda = .rst false :: rest) :
    step s = .next (resetWith false (s.beginTurn rest)) := by
  rw [step_eq_turn, hmove]
  rfl

/-- The edge on which the reset line returns to 1 resets the engine again (70_reset_and_hazards.md R108). -/
theorem step_rst_rises {rest : List Event} (hr : s.rstN = false) (hmove : s.agenda = .rst true :: rest) :
    step s = .next (resetWith true (s.beginTurn rest)) := by
  have edge : ¬ (true && s.rstN) = true := by simp [hr]
  rw [step_eq_turn, hmove]
  exact if_neg edge

/-- An idle engine's own turn does nothing (10_state.md R18). -/
theorem step_engine_idle {rest : List Event} (hp : s.phase = .idle) (hmove : s.EngineMovesNext rest) :
    step s = .next (s.beginTurn rest) :=
  hmove.step_eq.trans (engineTurn_idle hp)

end

/-- Settles O46: both acks are the cipher's turn, which ignores them without a request. -/
theorem ackWithoutRequestIsIgnored : Obligations.AckWithoutRequestIsIgnored := by
  intro s e rest hc he hagenda
  rw [step_eq_turn, hagenda]
  obtain rfl | ⟨b, rfl⟩ := he
  · exact cipherTurn_ignored _ hc
  · exact cipherTurn_ignored b hc

/-- Settles O4: every instruction is one transaction. -/
theorem transactionsDuringResetAreRefused : Obligations.TransactionsDuringResetAreRefused := by
  intro i s hr
  rw [exec_eq_transact, transact_eq_refused hr]

/-- Settles O3: the registers by evaluation; the state in reset is idle without a request, so its own turn does nothing and
an ack is ignored (O46). -/
theorem resetAbandonsEverything : Obligations.ResetAbandonsEverything := by
  intro s rest hmove
  refine ⟨resetWith false (s.beginTurn rest), step_rst_low hmove, rfl, rfl, rfl, rfl, rfl, rfl, rfl, rfl, rfl, rfl, rfl, rfl,
    rfl, rfl, rfl, rfl, rfl, rfl, fun _ => rfl, fun e more he => ?_, fun more => ?_⟩
  · obtain rfl | ack := he
    · exact step_engine_idle rfl (.inl rfl)
    · exact ackWithoutRequestIsIgnored _ e more rfl ack rfl
  · exact ⟨_, step_rst_rises rfl rfl, rfl, rfl, rfl, rfl, rfl, rfl, rfl, rfl, rfl⟩

/-! ## Transactions on a busy engine -/

section
variable {s t : State} {i : Instr} (hr : s.rstN = true) (busy : s.busy = true)
include busy

/-- While busy a transaction does not raise DONE: only a command word on an idle engine does (60_exceptions.md R96). -/
theorem done_of_exec_busy (ht : exec i s = .next t) (high : t.done = true) : s.done = true := by
  by_contra low
  obtain ⟨-, u, d, r, hu, rfl⟩ := exec_cases ht
  obtain ⟨idle, -⟩ := hu.done_raised (eq_false_of_ne_true low) high
  exact nomatch idle.symm.trans busy

include hr

/-- A read of any BUF offset is refused while busy, outside BUF by the offset check (60_exceptions.md R97). -/
theorem exec_rdBuf_refused (off : Offset) : exec (.rdBuf off) s = .next (s.respond (some 0) .slverr) := by
  cases hoff : isBufOffset s.nMax off with
  | true => exact exec_rdBuf_busy hr busy hoff
  | false => exact ((rowsWithOperandsNoBitsDecodeTo s hr).1 off hoff).1

/-- A write of any BUF offset is refused while busy, outside BUF by the offset check (60_exceptions.md R97). -/
theorem exec_wrBuf_refused (off : Offset) (d : Word) : exec (.wrBuf off d) s = .next (s.respond none .slverr) := by
  cases hoff : isBufOffset s.nMax off with
  | true => exact exec_wrBuf_busy hr busy hoff d
  | false => exact ((rowsWithOperandsNoBitsDecodeTo s hr).1 off hoff).2 d

end

/-- Settles O50: a transaction keeps the command and does not raise DONE; the writes of CMD, LEN and BUF and the read of BUF
are refused, each by its effect. -/
theorem busyEngineIsNotDisturbed : Obligations.BusyEngineIsNotDisturbed := by
  intro i s hr busy
  obtain ⟨t, ht, same, hagenda⟩ := exec_sameCommand i hr busy
  have refused {data : Option Word} (h : exec i s = .next (s.respond data .slverr)) : t = s.respond data .slverr :=
    Host.Outcome.next.inj (ht.symm.trans h)
  have written {f : State → State} (h : effectOf i = writeIdle f) : t = s.respond none .slverr :=
    refused (exec_writeIdle_busy hr h busy)
  refine ⟨t, ht, ?_, done_of_exec_busy busy ht, ?_, ?_⟩
  · rw [SameCommand, hagenda] at same
    exact same
  · rintro (⟨w, rfl⟩ | ⟨w, rfl⟩ | ⟨off, w, rfl⟩ | rfl | rfl | rfl | ⟨opc, mbz, rfl⟩)
    · exact written (f := accept w) rfl
    · exact written (f := State.writeLen w) rfl
    · exact refused (exec_wrBuf_refused hr busy off w)
    · exact written (f := acceptNop) rfl
    · exact written (f := acceptWrap) rfl
    · exact written (f := acceptUnwrap) rfl
    · exact written (f := accept (mbz ++ opc)) rfl
  · rintro ⟨off, rfl⟩
    exact refused (exec_rdBuf_refused hr busy off)

end Sys2Proof.Machine
end
